-- ==== Sys2Proof/Word.lean ====
section
/-!
DEFINITION. The word types of the ULK3140: bytes, 32-bit numbers, logical addresses and bitmaps.
Physical flash addresses are plain numbers, reached from logical ones by translation (R8).
-/

namespace Sys2Proof

/-- One byte of the flash, of a host wire or of a record. -/
abbrev Byte := BitVec 8

/-- A 32-bit number: a serial, a CRC-32, a sequence number, a generation, the map epoch. -/
abbrev Word32 := BitVec 32

/-- A logical address a host sends, 0x000000 to 0xFFFFFF (Table 0.1). -/
abbrev LogicalAddr := BitVec 24

/-- A bitmap of R18 as one number: bit s is the bit of segment s, so that its 32 bytes are the number little-endian. -/
abbrev Bitmap := BitVec 256

/-- A set of the sectors 0 to 15 of a segment (Table 1.1, fresh mask). -/
abbrev SectorSet := BitVec 16

end Sys2Proof
end

