-- ==== Sys2Proof/Config.lean ====
section
/-!
DEFINITION. The fixed numbers of the ULK3140 (geometry, codes, time limits) and the free values: what the
manual leaves open, as constants with no body.
-/

namespace Sys2Proof.Config

/-- Table 0.1: bytes of a program page. -/
def pageSize : Nat := 0x100
/-- Table 0.1: bytes of a sector. -/
def sectorSize : Nat := 0x1000
/-- Table 0.1: bytes of a segment, of a block and of a map area. -/
def segmentSize : Nat := 0x10000
/-- Table 0.1: the mapped segments are 0 to 254. -/
def mappedSegments : Nat := 255
/-- Table 0.1: bank B lies this far above bank A, and so does map area 1 above map area 0. -/
def bankSize : Nat := 0x1000000
/-- Table 0.1: bytes of the physical flash, 32 MiB. -/
def flashSize : Nat := 0x2000000
/-- Table 0.1, R77: where map area 0 begins, slot 255 of bank A. -/
def mapArea0 : Nat := 0x0FF0000
/-- R77: bytes of a log position. -/
def positionSize : Nat := 128
/-- R77: positions of a map area. -/
def positions : Nat := 512

/-- Table 8.1: what every byte of an erased sector or block reads. -/
def erasedByte : Byte := 0xFF

/-- R41, Table 12.1: the magic of an image header. -/
def imageMagic : Word32 := 0x494B4C55
/-- R41: the format of an image header. -/
def imageFormat : BitVec 16 := 1
/-- R41: the descriptor count of an image header. -/
def descriptorCount : BitVec 16 := 255
/-- R45: bytes of the header range. -/
def headerLength : Nat := 2056
/-- R43: the largest used length of segment 0. -/
def usedLimit0 : Nat := 61440
/-- R43: the largest used length of the segments 1 to 254. -/
def usedLimit : Nat := 65536
/-- R78, Table 12.2: the magic of an area header. -/
def areaMagic : Word32 := 0x474F4C55

/-- R31: where the commit word lies. -/
def commitWordAddr : LogicalAddr := 0x000FF0
/-- R101: where the acceptance word lies. -/
def acceptanceWordAddr : LogicalAddr := 0x000FF4
/-- R31: START-COMMIT. -/
def startCommitWord : Word32 := 0xA5C31E0F
/-- R31: ABANDON. -/
def abandonWord : Word32 := 0xA5C3E10F
/-- R101: ACCEPT. -/
def acceptWord : Word32 := 0x5AC30A11
/-- R101: REVERT. -/
def revertWord : Word32 := 0x5AC30B22

/-- R136: run-time limit of a program, in ms. -/
def programLimit : Nat := 8
/-- R136: run-time limit of a sector erase, in ms. -/
def sectorEraseLimit : Nat := 1600
/-- R136: run-time limit of a block erase, in ms. -/
def blockEraseLimit : Nat := 6000
/-- R117: limit of the ready poll, in ms. -/
def readyLimit : Nat := 8000
/-- R133, R140: how often one erase may be suspended. -/
def suspendBudget : Nat := 32
/-- R150: the next chunk is formed when no more than this many bytes remain undelivered. -/
def bufferLow : Nat := 256

/-- R158: the four identification bytes. -/
def identBytes : List Byte := [0xDA, 0x31, 0x18, 0x01]

/-- FREE VALUE (log entry 5). Table 8.1 serves reads during a suspension outside the block under erase only; what a
read inside it returns is not stated. The first argument tells one such read from another, the second is the address. -/
opaque suspendedRead : Nat → Nat → Byte

/-- FREE VALUE (log entry 11). The image state a valid BASE record with a state byte outside Table 12.4 stands for:
0 VIRGIN, 1 CONFIRMED, 2 TRIAL. -/
opaque undecodedState : Byte → Fin 3

/-- FREE VALUE (log entry 11). The trial count or limit a valid record with such a byte above 3 stands for. -/
opaque undecodedTrial : Byte → Fin 4

/-- FREE VALUE (log entry 11). The target flag a valid BASE record with a flag byte other than 0x00 and 0x01 stands for. -/
opaque undecodedFlag : Byte → Bool

end Sys2Proof.Config
end

