-- ==== Sys2Proof/Syntax.lean ====
section
/-!
DEFINITION. The commands of the ULK3140: one constructor of Instr for each row of spec/opcode_table.json, with the
operands the spec gives the row. The table gives no bits, so the operands are those of the spec's text.
-/

namespace Sys2Proof

/-- Host Port 0 and Host Port 1 (00, Block overview). -/
inductive Port where
  | hp0
  | hp1
  deriving DecidableEq, Repr

/-- The level of a strap pin at the sample; an open pin is pulled down and sampled as 0 (R172). -/
inductive PinLevel where
  | low
  | high
  | unconnected
  deriving DecidableEq, Repr

/-- The seven strap pins (Table 12.10). -/
structure StrapPins where
  updSel1 : PinLevel
  updSel0 : PinLevel
  chkEn : PinLevel
  trialLim1 : PinLevel
  trialLim0 : PinLevel
  idleLim1 : PinLevel
  idleLim0 : PinLevel
  deriving DecidableEq, Repr

/-- What the flash left of a program or erase that did not end with success, as (offset from the operation's address,
byte) pairs; an offset that is not listed was taken as by a success. Nothing constrains the bytes of an erase; a byte of
a program can only lose bits (Table 8.1). Log entry 10. -/
abbrev Remains := List Host.Cell

/-- What the flash reports when it is not busy any more (R135). -/
inductive FlashReport where
  /-- No failure is indicated. -/
  | success
  /-- A failure is indicated; the operand is what the page or block then holds. -/
  | failed (left : Remains)
  deriving DecidableEq, Repr

/-- The requests of Table 12.9 as a host port decodes them (R144, R171). `clocks` counts the bytes the host clocks out. -/
inductive HostRequest where
  | arrayRead (addr : LogicalAddr) (clocks : Nat)
  | pageProgram (addr : LogicalAddr) (data : List Byte)
  | sectorErase (addr : LogicalAddr)
  | segmentErase (addr : LogicalAddr)
  | writeEnable
  | writeDisable
  | statusRead (clocks : Nat)
  | extendedStatusRead (clocks : Nat)
  | identRead (clocks : Nat)
  | softReset
  | unknownCode (code : Byte) (clocks : Nat)
  deriving DecidableEq, Repr

/-- How the ports are released at SERVING (R125): the port whose held request is taken first, and how many bytes the host of
each port clocks out of a held request once it is taken (R144). -/
structure Release where
  first : Port
  hp0Clocks : Nat
  hp1Clocks : Nat
  deriving DecidableEq, Repr

/-- How the READ of a host chunk completes: whether the next chunk of the port, when it may form one, is taken before the
completion (R139), and how many bytes the host clocks out of a request held at the end of the transfer once it is taken
(R144). -/
structure ChunkEnd where
  nextFirst : Bool
  clocks : Nat
  deriving DecidableEq, Repr

/-- How the host of a read transfer clocks: how many bytes of the READ in flight are handed over before it does (R134, log
entry 34), and how many bytes it then clocks out (R144). -/
structure Clocking where
  arrived : Nat
  clocks : Nat
  deriving DecidableEq, Repr

/-- The commands, in the order of spec/opcode_table.json. -/
inductive Instr where
  /-- PART_RESET (R114). -/
  | partReset
  /-- PART_RESET_END (R114, R115): the pins are those sampled at the strap latch. -/
  | partResetEnd (pins : StrapPins)
  /-- FLASH_READY (R117). -/
  | flashReady
  /-- FLASH_WAIT_TIMEOUT (R117). -/
  | flashWaitTimeout
  /-- START_UP_FLASH_RESET_COMPLETE (R143, R117): the operand is what is left of an operation from before the reset. -/
  | startUpFlashResetComplete (left : Remains)
  /-- SCAN (R118). -/
  | scan
  /-- REPLAY_READ_COMPLETE (R91 to R96). -/
  | replayReadComplete
  /-- INIT (R119). -/
  | init
  /-- TRIAL_STEP (R120, R109 to R111). -/
  | trialStep
  /-- CHECK (R121). -/
  | check
  /-- SERVING (R125 to R127): the operand says how the held requests are taken. -/
  | serving (release : Release)
  /-- ARRAY_READ (R150). -/
  | arrayRead (p : Port) (addr : LogicalAddr) (clocks : Nat)
  /-- NEXT_CHUNK (R150): bytes of the READ in flight have arrived, the host has clocked bytes, and the next chunk is formed when
  the port may form it. -/
  | nextChunk (p : Port) (clocks : Clocking)
  /-- TRANSFER_END (R151): bytes of the READ in flight have arrived, the host has clocked bytes and releases the select. -/
  | transferEnd (p : Port) (clocks : Clocking)
  /-- PAGE_PROGRAM (R149): every data byte clocked in, however many. -/
  | pageProgram (p : Port) (addr : LogicalAddr) (data : List Byte)
  /-- SECTOR_ERASE (R27, R149). -/
  | sectorErase (p : Port) (addr : LogicalAddr)
  /-- SEGMENT_ERASE (R28, R149). -/
  | segmentErase (p : Port) (addr : LogicalAddr)
  /-- START_COMMIT (R33): the program of START-COMMIT to the commit word. -/
  | startCommit (p : Port)
  /-- ABANDON (R32): the program of ABANDON to the commit word. -/
  | abandon (p : Port)
  /-- ACCEPT (R102): the program of ACCEPT to the acceptance word. -/
  | accept (p : Port)
  /-- REVERT (R104): the program of REVERT to the acceptance word. -/
  | revert (p : Port)
  /-- WRITE_ENABLE (R148). -/
  | writeEnable (p : Port)
  /-- WRITE_DISABLE (R148). -/
  | writeDisable (p : Port)
  /-- STATUS_READ (R156). -/
  | statusRead (p : Port) (clocks : Nat)
  /-- EXTENDED_STATUS_READ (R157). -/
  | extendedStatusRead (p : Port) (clocks : Nat)
  /-- IDENT_READ (R158). -/
  | identRead (p : Port) (clocks : Nat)
  /-- SOFT_RESET (R159). -/
  | softReset (p : Port)
  /-- UNKNOWN_CODE (R171, R146). -/
  | unknownCode (p : Port) (code : Byte) (clocks : Nat)
  /-- INCOMPLETE_REQUEST (R144): the bytes clocked in before the select was released. -/
  | incompleteRequest (p : Port) (sent : List Byte)
  /-- HELD_REQUEST_FORGOTTEN (R124, R151). -/
  | heldRequestForgotten (p : Port)
  /-- IDLE_TIMER_EXPIRY (R36). -/
  | idleTimerExpiry
  /-- ACCESS_GRANT (R133). -/
  | accessGrant
  /-- ERASE_SUSPENDED (R137). -/
  | eraseSuspended
  /-- OPERATION_TIMEOUT (R136): the operand is what the flash reset leaves of the operation. -/
  | operationTimeout (left : Remains)
  /-- FLASH_RESET_COMPLETE (R136). -/
  | flashResetComplete
  /-- HOST_CHUNK_READ_COMPLETE (R134): the second operand says what is taken around the completion. -/
  | hostChunkReadComplete (p : Port) (chunkEnd : ChunkEnd)
  /-- OPENING_ERASE_COMPLETE (R26). -/
  | openingEraseComplete (r : FlashReport)
  /-- SHADOW_SECTOR_ERASE_COMPLETE (R27). -/
  | shadowSectorEraseComplete (r : FlashReport)
  /-- SHADOW_BLOCK_ERASE_COMPLETE (R28). -/
  | shadowBlockEraseComplete (r : FlashReport)
  /-- OWNER_PROGRAM_COMPLETE (R30, R33). -/
  | ownerProgramComplete (r : FlashReport)
  /-- CHECK_CHUNK_READ_COMPLETE (R50): the operand says whether the next READ of the client is taken before the completion
  (R139). -/
  | checkChunkReadComplete (nextFirst : Bool)
  /-- CHECK_RANGE_RESULT (R51). -/
  | checkRangeResult
  /-- DESCRIPTOR_READ_COMPLETE (R54): the operand says whether the next READ of the client is taken before the completion
  (R139). -/
  | descriptorReadComplete (nextFirst : Bool)
  /-- COPY_READ_COMPLETE (R62). -/
  | copyReadComplete
  /-- COPY_PROGRAM_COMPLETE (R62). -/
  | copyProgramComplete (r : FlashReport)
  /-- APPEND_WRITE (R83, R84). -/
  | appendWrite
  /-- RECORD_PROGRAM_COMPLETE (R84 to R86). -/
  | recordProgramComplete (r : FlashReport)
  /-- READ_BACK_COMPLETE (R85, R86). -/
  | readBackComplete
  /-- MAP_AREA_ERASE_COMPLETE (R88, R95). -/
  | mapAreaEraseComplete (r : FlashReport)
  /-- AREA_HEADER_PROGRAM_COMPLETE (R88, R95). -/
  | areaHeaderProgramComplete (r : FlashReport)
  /-- BASE_PROGRAM_COMPLETE (R88, R95). -/
  | baseProgramComplete (r : FlashReport)
  /-- SWITCH_TAKES_EFFECT (R17). -/
  | switchTakesEffect
  deriving DecidableEq, Repr

end Sys2Proof
end

