-- ==== Sys2Proof/WellFormed.lean ====
section
/-!
DEFINITION. Which commands are well formed: a code that Table 12.9 does not list for UNKNOWN_CODE, a request that is
really incomplete for INCOMPLETE_REQUEST, and what a flash operation leaves listed once for each offset, inside the
block the longest operation covers.
-/

namespace Sys2Proof

/-- The command codes of Table 12.9. -/
def commandCodes : List Byte := [0x31, 0x42, 0x54, 0x5D, 0x16, 0x19, 0x25, 0x2A, 0x7E, 0xF0]

/-- The codes of Table 12.9 that an address follows (R144). -/
def addressedCodes : List Byte := [0x31, 0x42, 0x54, 0x5D]

/-- Offsets strictly rising from `low`, all below the size of a block. -/
def remainsRise (low : Nat) : Remains → Bool
  | [] => true
  | c :: t => decide (low ≤ c.1) && decide (c.1 < Config.segmentSize) && remainsRise (c.1 + 1) t

/-- What a flash operation left is well formed: each offset once, in rising order, inside a block. -/
def Remains.wellFormed (left : Remains) : Bool := remainsRise 0 left

/-- A report of the flash is well formed. -/
def FlashReport.wellFormed : FlashReport → Bool
  | .success => true
  | .failed left => Remains.wellFormed left

/-- R144: the code or the address of a request is not complete. -/
def incompleteBytes : List Byte → Bool
  | [] => true
  | c :: rest => decide (c ∈ addressedCodes) && decide (rest.length < 3)

/-- Well-formedness of a command. -/
def Instr.wellFormed : Instr → Bool
  | .unknownCode _ code _ => decide (code ∉ commandCodes)
  | .incompleteRequest _ sent => incompleteBytes sent
  | .startUpFlashResetComplete left => Remains.wellFormed left
  | .operationTimeout left => Remains.wellFormed left
  | .openingEraseComplete r => r.wellFormed
  | .shadowSectorEraseComplete r => r.wellFormed
  | .shadowBlockEraseComplete r => r.wellFormed
  | .ownerProgramComplete r => r.wellFormed
  | .copyProgramComplete r => r.wellFormed
  | .recordProgramComplete r => r.wellFormed
  | .mapAreaEraseComplete r => r.wellFormed
  | .areaHeaderProgramComplete r => r.wellFormed
  | .baseProgramComplete r => r.wellFormed
  | .partReset => true
  | .partResetEnd _ => true
  | .flashReady => true
  | .flashWaitTimeout => true
  | .scan => true
  | .replayReadComplete => true
  | .init => true
  | .trialStep => true
  | .check => true
  | .serving _ => true
  | .arrayRead _ _ _ => true
  | .nextChunk _ _ => true
  | .transferEnd _ _ => true
  | .pageProgram _ _ _ => true
  | .sectorErase _ _ => true
  | .segmentErase _ _ => true
  | .startCommit _ => true
  | .abandon _ => true
  | .accept _ => true
  | .revert _ => true
  | .writeEnable _ => true
  | .writeDisable _ => true
  | .statusRead _ _ => true
  | .extendedStatusRead _ _ => true
  | .identRead _ _ => true
  | .softReset _ => true
  | .heldRequestForgotten _ => true
  | .idleTimerExpiry => true
  | .accessGrant => true
  | .eraseSuspended => true
  | .flashResetComplete => true
  | .hostChunkReadComplete _ _ => true
  | .checkChunkReadComplete _ => true
  | .checkRangeResult => true
  | .descriptorReadComplete _ => true
  | .copyReadComplete => true
  | .appendWrite => true
  | .readBackComplete => true
  | .switchTakesEffect => true

end Sys2Proof
end

