-- ==== Sys2Proof/Decode.lean ====
section
/-!
DEFINITION. Decoding. The opcode table gives no row any bits, so no word spells a command and `decodeTableWord` answers
none for every word. The host wires do spell requests: `decodeRequest` reads the bytes a host clocks in by Table 12.9,
and `requestBytes` writes them.
-/

namespace Sys2Proof

/-- The command a word spells by the table's bits: the table gives no row bits, so there is none. -/
def decodeTableWord (_nbits _w : Nat) : Option Instr := none

/-- R144, R171: three address bytes, the most significant first. -/
def addrOfBytes (a b c : Byte) : LogicalAddr := a ++ b ++ c

/-- R144: the address bytes of an address, the most significant first. -/
def bytesOfAddr (a : LogicalAddr) : List Byte :=
  [a.extractLsb' 16 8, a.extractLsb' 8 8, a.extractLsb' 0 8]

/-- R171, Table 12.9: the command of the bytes a host clocks in between asserting and releasing the select of port p.
`clocks` is the number of bytes it clocks out. Bytes clocked in after the code of WRITE ENABLE and WRITE DISABLE are
disregarded (R148). DESIGN CHOICE (log entry 32): so are those after the address of an erase and after the code of SOFT
RESET, of which R149 and R159 do not speak. -/
def decodeRequest (p : Port) (sent : List Byte) (clocks : Nat) : Instr :=
  match sent with
  | [] => .incompleteRequest p []
  | code :: rest =>
    if code = 0x31 then
      match rest with
      | a :: b :: c :: _ => .arrayRead p (addrOfBytes a b c) clocks
      | _ => .incompleteRequest p sent
    else if code = 0x42 then
      match rest with
      | a :: b :: c :: data => .pageProgram p (addrOfBytes a b c) data
      | _ => .incompleteRequest p sent
    else if code = 0x54 then
      match rest with
      | a :: b :: c :: _ => .sectorErase p (addrOfBytes a b c)
      | _ => .incompleteRequest p sent
    else if code = 0x5D then
      match rest with
      | a :: b :: c :: _ => .segmentErase p (addrOfBytes a b c)
      | _ => .incompleteRequest p sent
    else if code = 0x16 then .writeEnable p
    else if code = 0x19 then .writeDisable p
    else if code = 0x25 then .statusRead p clocks
    else if code = 0x2A then .extendedStatusRead p clocks
    else if code = 0x7E then .identRead p clocks
    else if code = 0xF0 then .softReset p
    else .unknownCode p code clocks

/-- Table 12.9: the bytes a host clocks in for a request. -/
def requestBytes : HostRequest → List Byte
  | .arrayRead a _ => 0x31 :: bytesOfAddr a
  | .pageProgram a data => 0x42 :: (bytesOfAddr a ++ data)
  | .sectorErase a => 0x54 :: bytesOfAddr a
  | .segmentErase a => 0x5D :: bytesOfAddr a
  | .writeEnable => [0x16]
  | .writeDisable => [0x19]
  | .statusRead _ => [0x25]
  | .extendedStatusRead _ => [0x2A]
  | .identRead _ => [0x7E]
  | .softReset => [0xF0]
  | .unknownCode code _ => [code]

/-- The bytes the host clocks out in a request. -/
def requestClocks : HostRequest → Nat
  | .arrayRead _ n => n
  | .statusRead n => n
  | .extendedStatusRead n => n
  | .identRead n => n
  | .unknownCode _ n => n
  | .pageProgram _ _ => 0
  | .sectorErase _ => 0
  | .segmentErase _ => 0
  | .writeEnable => 0
  | .writeDisable => 0
  | .softReset => 0

/-- The command by which port p receives a request. -/
def requestCommand (p : Port) : HostRequest → Instr
  | .arrayRead a n => .arrayRead p a n
  | .pageProgram a data => .pageProgram p a data
  | .sectorErase a => .sectorErase p a
  | .segmentErase a => .segmentErase p a
  | .writeEnable => .writeEnable p
  | .writeDisable => .writeDisable p
  | .statusRead n => .statusRead p n
  | .extendedStatusRead n => .extendedStatusRead p n
  | .identRead n => .identRead p n
  | .softReset => .softReset p
  | .unknownCode code n => .unknownCode p code n

end Sys2Proof
end

