-- ==== Sys2Proof/Machine/Bytes.lean ====
section
/-!
DEFINITION. Byte order and the CRC-32: little-endian fields (00, Conventions; R47), the bitmap's 32 bytes (R18) and the
bit-serial CRC of R46.
-/

namespace Sys2Proof.Machine

/-- Byte i of a list; a byte beyond its end reads 0. -/
def byteAt (bs : List Byte) (i : Nat) : Byte := bs.getD i 0

/-- A 16-bit field at offset i, little-endian. -/
def le16At (bs : List Byte) (i : Nat) : BitVec 16 := byteAt bs (i + 1) ++ byteAt bs i

/-- A 32-bit field at offset i, little-endian (R47). -/
def le32At (bs : List Byte) (i : Nat) : Word32 :=
  byteAt bs (i + 3) ++ byteAt bs (i + 2) ++ byteAt bs (i + 1) ++ byteAt bs i

/-- The four bytes of a 32-bit number, the least significant first (R47). -/
def le32Bytes (w : Word32) : List Byte :=
  [w.extractLsb' 0 8, w.extractLsb' 8 8, w.extractLsb' 16 8, w.extractLsb' 24 8]

/-- A number from its bytes, the least significant first. -/
def natOfBytes : List Byte → Nat
  | [] => 0
  | b :: t => b.toNat + 256 * natOfBytes t

/-- R18, R170: a bitmap with the bit of segment 255 as 0: that bit is written 0 and disregarded when read. -/
def mappedBits (m : Bitmap) : Bitmap := m &&& (BitVec.allOnes Config.mappedSegments).setWidth 256

/-- R18, R170: the 32 bytes of a bitmap, the bit of segment s at bit (s mod 8) of byte (s div 8). -/
def bitmapBytes (m : Bitmap) : List Byte := (List.range 32).map (fun i => (mappedBits m).extractLsb' (8 * i) 8)

/-- R18, R170: the bitmap in 32 bytes from offset i. -/
def bitmapAt (bs : List Byte) (i : Nat) : Bitmap := mappedBits (BitVec.ofNat 256 (natOfBytes ((bs.drop i).take 32)))

/-- R46: one step of the CRC register. -/
def crcStep (r : Word32) : Word32 :=
  if r.getLsbD 0 then (r >>> 1) ^^^ 0xEDB88320#32 else r >>> 1

/-- R46: one byte taken into the CRC register. -/
def crcByte (r : Word32) (b : Byte) : Word32 :=
  crcStep (crcStep (crcStep (crcStep (crcStep (crcStep (crcStep (crcStep (r ^^^ b.setWidth 32))))))))

/-- R46: bytes taken into the CRC register in order. -/
def crcBytes (r : Word32) (bs : List Byte) : Word32 := bs.foldl crcByte r

/-- R46: the register before the first byte. -/
def crcStart : Word32 := 0xFFFFFFFF

/-- R46: the inversion after the last byte. -/
def crcFinish (r : Word32) : Word32 := ~~~r

/-- R46: the CRC-32 of a sequence of bytes. -/
def crc32 (bs : List Byte) : Word32 := crcFinish (crcBytes crcStart bs)

end Sys2Proof.Machine
end

