-- ==== Sys2Proof/Machine/State.lean ====
section
/-!
DEFINITION. The state of the ULK3140, block by block, as plain data, with its part-reset values.
-/

namespace Sys2Proof.Machine

/-! ### The Segment Map (chapter 1) -/

/-- The two halves of the physical flash (Table 0.1). -/
inductive Bank where
  | a
  | b
  deriving DecidableEq, Repr

/-- The phase of a map entry (Table 1.1); `opened` is OPEN. -/
inductive EntryPhase where
  | stable
  | opening
  | opened
  | filling
  | ready
  deriving DecidableEq, Repr

/-- A map entry (Table 1.1). The segment it describes is its index in the table. -/
structure MapEntry where
  bank : Bank
  phase : EntryPhase
  fresh : SectorSet
  damaged : Bool
  /-- R3: the sectors the open request named, kept with the entry until the opening completes. -/
  toOpen : SectorSet
  deriving DecidableEq, Repr

/-- R2: an entry after a part reset. -/
def MapEntry.reset : MapEntry :=
  { bank := .a, phase := .stable, fresh := 0, damaged := false, toOpen := 0 }

/-- Section 1.5: who asked for a switch. -/
inductive SwitchRequester where
  | commitEngine
  | imageState
  deriving DecidableEq, Repr

/-- Section 1.5: the pending-switch record. Bit s of the flip set is segment s. -/
structure PendingSwitch where
  requester : SwitchRequester
  flip : Bitmap
  endsEpoch : Word32
  deriving DecidableEq, Repr

/-- The state of the Segment Map. -/
structure SegmentMap where
  entries : List MapEntry
  epoch : Word32
  pinned : Nat
  switch : Option PendingSwitch
  deriving DecidableEq, Repr

/-- R2: the Segment Map after a part reset. -/
def SegmentMap.reset : SegmentMap :=
  { entries := List.replicate Config.mappedSegments MapEntry.reset, epoch := 0, pinned := 0, switch := none }

/-! ### The Session Controller (chapter 2) -/

/-- R20: the update lock. -/
inductive UpdateLock where
  | free
  | session
  | rollback
  deriving DecidableEq, Repr

/-- Table 2.2: the state of the session record; `nobody` is NONE. -/
inductive SessionState where
  | nobody
  | active
  | closing
  | ending
  deriving DecidableEq, Repr

/-- Table 2.1: the reason a session is ending. -/
inductive EndReason where
  | idle
  | owner
  | verdict
  deriving DecidableEq, Repr

/-- R35: the idle timer, with its remaining time in ms. -/
inductive IdleTimer where
  | stopped
  | paused (ms : Nat)
  | running (ms : Nat)
  deriving DecidableEq, Repr

/-- The update lock and the session record (Table 2.1). -/
structure Session where
  lock : UpdateLock
  state : SessionState
  owner : Option Port
  openCount : Nat
  openLogged : Bool
  timer : IdleTimer
  endReason : Option EndReason
  deriving DecidableEq, Repr

/-- R19: the Session Controller after a part reset. -/
def Session.reset : Session :=
  { lock := .free, state := .nobody, owner := none, openCount := 0, openLogged := false, timer := .stopped,
    endReason := none }

/-! ### Outcome codes (Table 12.8) -/

/-- The outcome codes of Table 12.8; `success` is NONE. -/
inductive Code where
  | success
  | portBusy
  | notUpdatePort
  | sessionOther
  | noSession
  | sectorNotFresh
  | outOfRange
  | pageCross
  | notOnTrial
  | noTarget
  | updatesLocked
  | engineBusy
  | committed
  | headerBad
  | staleSerial
  | checkMismatch
  | shadowDamaged
  | fillFail
  | logFail
  | abandonedIdle
  | abandonedOwner
  | confirmed
  | rolledBack
  | opFailed
  deriving DecidableEq, Repr

/-! ### Header, Check Unit and the readers (chapter 3) -/

/-- Table 3.3: the header summary. -/
structure HeaderSummary where
  valid : Bool
  serial : Word32
  headerCrc : Word32
  used : List Word32
  deriving DecidableEq, Repr

/-- R45: what a reader captures while the header range passes. `over` notes that a used length exceeds its limit. -/
structure HeaderCapture where
  magic : Word32
  format : BitVec 16
  count : BitVec 16
  serial : Word32
  headerCrc : Word32
  used : List Word32
  exceeded : Bool
  deriving DecidableEq, Repr

/-- The capture before the first byte of the header range. -/
def HeaderCapture.empty : HeaderCapture :=
  { magic := 0, format := 0, count := 0, serial := 0, headerCrc := 0, used := [], exceeded := false }

/-- Table 3.4: the clients of the Check Unit. -/
inductive CheckClient where
  | commitEngine
  | sequencer
  deriving DecidableEq, Repr

/-- Table 3.4: the kind of a range. -/
inductive RangeKind where
  | header
  | segment
  deriving DecidableEq, Repr

/-- The state of the Check Unit (Table 3.4). -/
structure CheckUnit where
  running : Bool
  client : Option CheckClient
  kind : Option RangeKind
  length : Nat
  count : Nat
  crc : Word32
  deriving DecidableEq, Repr

/-- R48, R51: the Check Unit after a part reset, and whenever it is IDLE. The spec gives its kind and length no value in
IDLE: they are absent and 0 (log entry 6). -/
def CheckUnit.reset : CheckUnit :=
  { running := false, client := none, kind := none, length := 0, count := 0, crc := 0xFFFFFFFF }

/-- R45, R53, R54: where a reader stands: in the header range, at the descriptor read of a segment, or in the range of a
segment whose check value it has taken. -/
inductive ReaderWork where
  | header (capture : HeaderCapture)
  | descriptor (seg : Nat)
  | segment (seg : Nat) (checkValue : Word32)
  deriving DecidableEq, Repr

/-- The reader at work: the Check Unit has one client at a time (R49). -/
structure Reader where
  client : CheckClient
  work : ReaderWork
  deriving DecidableEq, Repr

/-! ### The Commit Engine (chapter 4) -/

/-- Table 4.1: the stage of a commit. -/
inductive CommitStage where
  | idle
  | header
  | fill
  | verify
  | record
  | switch
  deriving DecidableEq, Repr

/-- Table 4.1: the cursor. -/
structure Cursor where
  seg : Nat
  sector : Nat
  deriving DecidableEq, Repr

/-- The commit record (Table 4.1). -/
structure CommitRecord where
  stage : CommitStage
  cursor : Option Cursor
  /-- The page of the sector being copied (R62), before it is in the buffer. -/
  page : Nat
  buffer : Option (Nat × List Byte)
  summary : Option HeaderSummary
  newBitmap : Option Bitmap
  verdict : Option (Code × BitVec 8)
  deriving DecidableEq, Repr

/-- R55: the Commit Engine after a part reset, and whenever it is IDLE. -/
def CommitRecord.reset : CommitRecord :=
  { stage := .idle, cursor := none, page := 0, buffer := none, summary := none, newBitmap := none, verdict := none }

/-! ### The Log Unit (chapter 5) -/

/-- R77: the two map areas. -/
inductive Area where
  | zero
  | one
  deriving DecidableEq, Repr

/-- Table 5.2: the lock state of the Log Unit. -/
inductive LogLock where
  | ok
  | faulted
  | corrupt
  deriving DecidableEq, Repr

/-- The image states a record can hold (Table 12.4): the log summary never holds CONFIRMING (R81). -/
inductive LoggedState where
  | virgin
  | confirmed
  | trial
  deriving DecidableEq, Repr

/-- The log summary: the fields of a BASE body (Tables 5.1, 12.4). -/
structure LogSummary where
  bitmap : Bitmap
  serial : Word32
  state : LoggedState
  count : Fin 4
  limit : Fin 4
  targetValid : Bool
  targetBitmap : Bitmap
  targetSerial : Word32
  deriving DecidableEq, Repr

/-- R80: the initial state of the log summary. -/
def LogSummary.initial : LogSummary :=
  { bitmap := 0, serial := 0, state := .virgin, count := 0, limit := 0, targetValid := false, targetBitmap := 0,
    targetSerial := 0 }

/-- Table 5.1: the cause of a rollback. -/
inductive RollbackCause where
  | requested
  | trialExpired
  | startCheck
  deriving DecidableEq, Repr

/-- A record's kind with its body (Tables 5.1, 12.4); `opened` is OPEN. -/
inductive RecordBody where
  | base (summary : LogSummary)
  | opened
  | commit (bitmap : Bitmap) (serial headerCrc : Word32) (limit : Fin 4)
  | trial (count : Fin 4)
  | confirm (serial : Word32)
  | rollback (bitmap : Bitmap) (serial : Word32) (cause : RollbackCause)
  deriving DecidableEq, Repr

/-- R88, R95: the steps in which a map area is written by a compaction or an initialisation. -/
inductive AreaStep where
  | erase
  | header
  | base
  deriving DecidableEq, Repr

/-- Table 5.2: the stage of the append in progress. -/
inductive AppendStage where
  | write
  | readBack
  | retryWrite
  | retryReadBack
  | compacting (step : AreaStep)
  deriving DecidableEq, Repr

/-- Table 5.2: the append in progress. `retry` says that a compaction is itself the retry of a failed write (R86). -/
structure Append where
  stage : AppendStage
  position : Nat
  seq : Word32
  retry : Bool
  deriving DecidableEq, Repr

/-- R92, R93: the place of replay in the current area. `miss` is absent while the last position read was applied; else it
is the append position if no later position holds the expected record. -/
structure ReplayWalk where
  area : Area
  generation : Word32
  position : Nat
  last : Word32
  summary : LogSummary
  miss : Option Nat
  deriving DecidableEq, Repr

/-- A replay in progress: first the positions 0 and 1 of both areas are read (R91), in the order area 0 then area 1, then
the records of the chosen area. -/
inductive Replay where
  | heads (read : List (List Byte))
  | walk (w : ReplayWalk)
  deriving DecidableEq, Repr

/-- The state of the Log Unit (Table 5.2), with an initialisation (R95) and a replay (R91) in progress. -/
structure LogUnit where
  lock : LogLock
  area : Option Area
  generation : Option Word32
  position : Nat
  nextSeq : Word32
  summary : LogSummary
  queue : List RecordBody
  append : Option Append
  initStep : Option AreaStep
  replay : Option Replay
  deriving DecidableEq, Repr

/-- R80: the Log Unit after a part reset. -/
def LogUnit.reset : LogUnit :=
  { lock := .ok, area := none, generation := none, position := 512, nextSeq := 1, summary := LogSummary.initial,
    queue := [], append := none, initStep := none, replay := none }

/-! ### The Image State unit (chapter 6) -/

/-- Table 6.1: the image state. -/
inductive ImageState where
  | virgin
  | confirmed
  | trial
  | confirming
  deriving DecidableEq, Repr

/-- Table 6.1: who a rollback is for. -/
inductive RollbackRequester where
  | port (p : Port)
  | sequencer
  deriving DecidableEq, Repr

/-- The state of the Image State unit (Table 6.1). -/
structure ImageUnit where
  serial : Word32
  state : ImageState
  count : Fin 4
  limit : Fin 4
  targetValid : Bool
  targetBitmap : Bitmap
  targetSerial : Word32
  imageOk : Bool
  acceptance : Option (Port × Word32)
  rollback : Option (RollbackRequester × RollbackCause)
  deriving DecidableEq, Repr

/-- R98: the Image State unit after a part reset. -/
def ImageUnit.reset : ImageUnit :=
  { serial := 0, state := .virgin, count := 0, limit := 0, targetValid := false, targetBitmap := 0, targetSerial := 0,
    imageOk := false, acceptance := none, rollback := none }

/-! ### The Start-up Sequencer (chapter 7) -/

/-- Table 7.1: the phases of a start-up. -/
inductive StartPhase where
  | flashWait
  | scan
  | init
  | trialStep
  | check
  | serving
  deriving DecidableEq, Repr

/-- Whether the work of a phase has begun or ended (the model's own: the table has a row for entering each phase). -/
inductive PhaseWork where
  | notBegun
  | running
  | ended
  deriving DecidableEq, Repr

/-- R117, R143: the flash-ready wait: none, polling with its elapsed ms, or the flash reset issued. -/
inductive FlashWait where
  | none
  | polling (ms : Nat)
  | resetting
  deriving DecidableEq, Repr

/-- Table 12.10: UPD_SEL. -/
inductive UpdSel where
  | none
  | hp0
  | hp1
  | both
  deriving DecidableEq, Repr

/-- Table 12.10: IDLE_LIM. -/
inductive IdleLim where
  | s10
  | s60
  | s300
  | none
  deriving DecidableEq, Repr

/-- R115: the latched straps. -/
structure Straps where
  updSel : UpdSel
  chkEn : Bool
  trialLim : Fin 4
  idleLim : IdleLim
  deriving DecidableEq, Repr

/-- The values that open pins give (R172); DESIGN CHOICE as the value before the first latch (log entry 7). -/
def Straps.unlatched : Straps := { updSel := .none, chkEn := false, trialLim := 0, idleLim := .s10 }

/-- Table 7.1: the SCAN result. -/
inductive ScanResult where
  | replayed
  | blank
  | corrupt
  deriving DecidableEq, Repr

/-- Table 7.1: the check pass. -/
inductive CheckPass where
  | none
  | first
  | second
  deriving DecidableEq, Repr

/-- Table 7.1: the check result. -/
inductive CheckResult where
  | notRun
  | passed
  | failed
  deriving DecidableEq, Repr

/-- The state of the Start-up Sequencer (Table 7.1). -/
structure Sequencer where
  /-- R114: a part reset is in force (the supply is not established, or RESET_N is low). -/
  inReset : Bool
  phase : StartPhase
  work : PhaseWork
  wait : FlashWait
  straps : Straps
  scanResult : Option ScanResult
  checkPass : CheckPass
  checkResult : CheckResult
  /-- R45: the header summary, kept for the rest of the CHECK phase. -/
  summary : Option HeaderSummary
  deriving DecidableEq, Repr

/-- R114: the Start-up Sequencer during a part reset. -/
def Sequencer.reset : Sequencer :=
  { inReset := true, phase := .flashWait, work := .notBegun, wait := .none, straps := Straps.unlatched,
    scanResult := none, checkPass := .none, checkResult := .notRun, summary := none }

/-! ### The Flash Port and Access Arbiter (chapter 8) -/

/-- R130: the clients of the arbiter. -/
inductive Client where
  | hp0
  | hp1
  | log
  | work
  deriving DecidableEq, Repr

/-- R131: an access, with physical addresses. -/
inductive Access where
  | read (addr : Nat) (length : Nat)
  | program (addr : Nat) (data : List Byte)
  | sectorErase (addr : Nat)
  | blockErase (addr : Nat)
  deriving DecidableEq, Repr

/-- Table 8.2: a slot. -/
inductive Slot where
  | empty
  | pending (a : Access)
  | granted (a : Access)
  deriving DecidableEq, Repr

/-- Table 8.2: the transfer in flight, a READ or a PROGRAM; the run time of a PROGRAM in ms. -/
structure FlashTransfer where
  client : Client
  access : Access
  runTime : Nat
  deriving DecidableEq, Repr

/-- Table 8.2: the condition of the erase in progress. -/
inductive EraseCondition where
  | running
  | suspending
  | suspended
  deriving DecidableEq, Repr

/-- Table 8.2: the kind of an erase. -/
inductive EraseKind where
  | sector
  | block
  deriving DecidableEq, Repr

/-- Table 8.2: the erase in progress; its run time in ms. -/
structure FlashErase where
  client : Client
  kind : EraseKind
  addr : Nat
  runTime : Nat
  suspends : Nat
  condition : EraseCondition
  deriving DecidableEq, Repr

/-- The state of the Flash Port and Access Arbiter (Table 8.2). -/
structure FlashPort where
  slotHp0 : Slot
  slotHp1 : Slot
  slotLog : Slot
  slotWork : Slot
  pointer : Client
  transfer : Option FlashTransfer
  erase : Option FlashErase
  resetting : Bool
  deriving DecidableEq, Repr

/-- R129: the Flash Port after a part reset. -/
def FlashPort.reset : FlashPort :=
  { slotHp0 := .empty, slotHp1 := .empty, slotLog := .empty, slotWork := .empty, pointer := .work, transfer := none,
    erase := none, resetting := false }

/-- R129, R117: an operation the flash was left with at a part reset. -/
inductive Leftover where
  | program (addr : Nat) (data : List Byte)
  | erase (addr : Nat) (length : Nat)
  deriving DecidableEq, Repr

/-! ### The host ports (chapter 9) -/

/-- Table 9.2: the state of a port. -/
inductive PortState where
  | held
  | ready
  | transfer
  | opBusy
  | commitBusy
  deriving DecidableEq, Repr

/-- R150: the view rule of a transfer: that of the owner port of a session, or that of any other port. -/
inductive ViewRule where
  | owner
  | stable
  deriving DecidableEq, Repr

/-- Table 9.1: the read transfer in progress. The epoch is absent until the first chunk is translated; `arrived` counts the
bytes of the READ in flight that have passed to the buffer already (R134); `ended` says that the host has released the select
while a READ of the transfer was granted (R151). -/
structure HostTransfer where
  next : LogicalAddr
  rule : ViewRule
  epoch : Option Word32
  buffer : List Byte
  arrived : Nat
  ended : Bool
  deriving DecidableEq, Repr

/-- Table 9.1: the request in flight. -/
inductive InFlight where
  | sectorErase (addr : LogicalAddr)
  | segmentErase (addr : LogicalAddr)
  | program (addr : LogicalAddr) (data : List Byte)
  deriving DecidableEq, Repr

/-- A host port (Table 9.1), with the requests it holds (R124, R151) and the bytes that the last command of the port that
clocked data out put on the data output. -/
structure HostPort where
  state : PortState
  wel : Bool
  refused : Bool
  progFail : Bool
  eraseFail : Bool
  code : Code
  seg : BitVec 8
  transfer : Option HostTransfer
  inFlight : Option InFlight
  held : List HostRequest
  dataOut : List Byte
  deriving DecidableEq, Repr

/-- R145: a host port after a part reset. -/
def HostPort.reset : HostPort :=
  { state := .held, wel := false, refused := false, progFail := false, eraseFail := false, code := .success, seg := 0xFF,
    transfer := none, inFlight := none, held := [], dataOut := [] }

/-! ### The Status Unit (chapter 10) -/

/-- Table 10.1: the members of the fault set. -/
inductive FaultMember where
  | flashTimeout
  | logFault
  | logCorrupt
  | noValidImage
  | trialExpired
  deriving DecidableEq, Repr

/-- The fault set: whether each member of Table 10.1 is in it. -/
structure FaultSet where
  flashTimeout : Bool
  logFault : Bool
  logCorrupt : Bool
  noValidImage : Bool
  trialExpired : Bool
  deriving DecidableEq, Repr

/-- R160: the empty fault set. -/
def FaultSet.empty : FaultSet :=
  { flashTimeout := false, logFault := false, logCorrupt := false, noValidImage := false, trialExpired := false }

/-! ### The whole part -/

/-- The state of the ULK3140 and of the flash behind it, with the queue of waiting commands. -/
structure State where
  pending : List Instr
  mem : List Host.Cell
  leftover : Option Leftover
  freeCount : Nat
  map : SegmentMap
  session : Session
  commit : CommitRecord
  check : CheckUnit
  reader : Option Reader
  log : LogUnit
  image : ImageUnit
  seq : Sequencer
  flash : FlashPort
  hp0 : HostPort
  hp1 : HostPort
  faults : FaultSet
  deriving DecidableEq, Repr

/-- Why a step can stop with a fault. -/
inductive Fault where
  /-- Raised by ACCESS_GRANT and ERASE_SUSPENDED when the access to be granted does not lie within the physical addresses
  0x0000000 to 0x1FFFFFF, which R128 says it always does. Safe: the model stops, and no run from reset gets there. -/
  | outsideFlash
  deriving DecidableEq, Repr

/-- Why a step can be refused. -/
inductive Refusal where
  /-- Raised by an arm of exec that has no meaning yet. Safe: the model stops. No arm of this model raises it. -/
  | notModelled (mnemonic : String)
  deriving DecidableEq, Repr

/-- The part during a part reset, every block at the values its chapter gives (R114), with a flash in which nothing has
been written and an empty queue. -/
def State.reset : State :=
  { pending := [], mem := [], leftover := none, freeCount := 0, map := SegmentMap.reset, session := Session.reset,
    commit := CommitRecord.reset, check := CheckUnit.reset, reader := none, log := LogUnit.reset,
    image := ImageUnit.reset, seq := Sequencer.reset, flash := FlashPort.reset, hp0 := HostPort.reset,
    hp1 := HostPort.reset, faults := FaultSet.empty }

end Sys2Proof.Machine
end

