-- ==== Sys2Proof/Machine/Memory.lean ====
section
/-!
DEFINITION. The contents of the physical flash: a list of (address, byte) pairs with rising addresses that lists no erased
byte; an address that is not listed reads 0xFF (log entry 3). Table 8.1 gives what reads, programs and erases do.
-/

namespace Sys2Proof.Machine

/-- The byte at an address. -/
def memRead : List Host.Cell → Nat → Byte
  | [], _ => Config.erasedByte
  | c :: t, a => if c.1 = a then c.2 else memRead t a

/-- The bytes from an address on. -/
def memReadBytes (m : List Host.Cell) (a n : Nat) : List Byte := (List.range n).map (fun i => memRead m (a + i))

/-- Sets the byte at an address, keeping the canonical form. -/
def memWrite : List Host.Cell → Nat → Byte → List Host.Cell
  | [], a, b => if b = Config.erasedByte then [] else [(a, b)]
  | c :: t, a, b =>
    if c.1 < a then c :: memWrite t a b
    else if c.1 = a then (if b = Config.erasedByte then t else (a, b) :: t)
    else if b = Config.erasedByte then c :: t else (a, b) :: c :: t

/-- What is listed for an offset of an operation that did not end with success. -/
def leftAt : Remains → Nat → Option Byte
  | [], _ => none
  | c :: t, i => if c.1 = i then some c.2 else leftAt t i

/-- Table 8.1: a page program changes bits from 1 to 0 only: each byte becomes the AND of the old byte and the data byte.
At an offset listed in `left` the flash took something else than the data byte. `i` is the offset of the first byte. -/
def memProgramFrom (left : Remains) : Nat → List Byte → List Host.Cell → Nat → List Host.Cell
  | _, [], m, _ => m
  | i, d :: ds, m, a =>
    memProgramFrom left (i + 1) ds (memWrite m (a + i) (memRead m (a + i) &&& (leftAt left i).getD d)) a

/-- A page program of `data` at `a`, of which the flash left `left` (nothing listed for a success). -/
def memProgram (m : List Host.Cell) (a : Nat) (data : List Byte) (left : Remains) : List Host.Cell :=
  memProgramFrom left 0 data m a

/-- Table 8.1: after an erase every byte of the range reads 0xFF. -/
def memClear (m : List Host.Cell) (a n : Nat) : List Host.Cell := m.filter (fun c => decide (c.1 < a ∨ a + n ≤ c.1))

/-- The bytes that an erase of n bytes at `a` left other than erased. -/
def memPutLeft (a n : Nat) : Remains → List Host.Cell → List Host.Cell
  | [], m => m
  | c :: t, m => memPutLeft a n t (if c.1 < n then memWrite m (a + c.1) c.2 else m)

/-- An erase of n bytes at `a`, of which the flash left `left` (nothing listed for a success). -/
def memErase (m : List Host.Cell) (a n : Nat) (left : Remains) : List Host.Cell := memPutLeft a n left (memClear m a n)

/-- What an operation of the flash from before a part reset left, once the start-up flash reset has completed (R117). -/
def memLeftover (m : List Host.Cell) (o : Leftover) (left : Remains) : List Host.Cell :=
  match o with
  | .program a data => memProgram m a data left
  | .erase a n => memErase m a n left

/-- The listed addresses rise strictly from `low`, and no erased byte is listed. -/
def memRises : Nat → List Host.Cell → Bool
  | _, [] => true
  | low, c :: t => decide (low ≤ c.1) && decide (c.2 ≠ Config.erasedByte) && memRises (c.1 + 1) t

/-- The canonical form of the flash contents. -/
def Memory.wf (m : List Host.Cell) : Bool := memRises 0 m

end Sys2Proof.Machine
end

