-- ==== Sys2Proof/Machine/Operands.lean ====
section
/-!
DEFINITION. The forms of the commands' operands: the parts of a logical address and its translation under a view (R8 to
R12), chunks (R132), control words (R31, R101), straps (R115, R172), and the requests a port keeps.
-/

namespace Sys2Proof.Machine

/-! ### Logical addresses (R8) -/

/-- R8: the segment of a logical address, its upper 8 bits. -/
def segOf (a : LogicalAddr) : Nat := a.toNat / Config.segmentSize

/-- R8: the offset within the segment, the lower 16 bits. -/
def offsetOf (a : LogicalAddr) : Nat := a.toNat % Config.segmentSize

/-- R8: the sector of an offset within its segment. -/
def sectorOfOffset (off : Nat) : Nat := off / Config.sectorSize

/-- R8: the sector of a logical address. -/
def sectorOf (a : LogicalAddr) : Nat := sectorOfOffset (offsetOf a)

/-- R169: the outcome segment of a logical address; for segment 255 it is 0xFF. -/
def outcomeSeg (a : LogicalAddr) : BitVec 8 := a.extractLsb' 16 8

/-- R132: the number of bytes from an address to the end of its 256-byte page. -/
def chunkLength (a : LogicalAddr) : Nat := Config.pageSize - a.toNat % Config.pageSize

/-! ### Copies and translation (R1, R8 to R12) -/

/-- The other bank: the bank of the shadow (R1). -/
def Bank.other : Bank → Bank
  | .a => .b
  | .b => .a

/-- R8: the physical address of an offset of the copy of a segment in a bank. -/
def physAddr (bank : Bank) (seg off : Nat) : Nat :=
  (match bank with
   | .a => 0
   | .b => Config.bankSize) + seg * Config.segmentSize + off

/-- Section 1.3: the three views. -/
inductive View where
  | stable
  | update
  | candidate
  deriving DecidableEq, Repr

/-- Table 1.3: the bank of the copy that a view returns for a sector of a segment. -/
def viewBank (v : View) (e : MapEntry) (sector : Nat) : Bank :=
  match v, e.phase with
  | .stable, _ => e.bank
  | .update, .opened => if e.fresh.getLsbD sector then e.bank.other else e.bank
  | .update, _ => e.bank
  | .candidate, .ready => e.bank.other
  | .candidate, .opened => if e.fresh.getLsbD sector then e.bank.other else e.bank
  | .candidate, .filling => if e.fresh.getLsbD sector then e.bank.other else e.bank
  | .candidate, _ => e.bank

/-- The entry of a segment. -/
def entryOf (es : List MapEntry) (seg : Nat) : MapEntry := es.getD seg MapEntry.reset

/-- R8: the physical address of an offset of a mapped segment under a view. -/
def translate (v : View) (es : List MapEntry) (seg off : Nat) : Nat :=
  physAddr (viewBank v (entryOf es seg) (sectorOfOffset off)) seg off

/-- R12: the physical address of an offset of the shadow of a segment. -/
def shadowAddr (es : List MapEntry) (seg off : Nat) : Nat := physAddr (entryOf es seg).bank.other seg off

/-- The segment that a physical address outside the map areas belongs to. -/
def segOfPhys (a : Nat) : Nat := a % Config.bankSize / Config.segmentSize

/-! ### Sector sets -/

/-- All 16 sectors. -/
def allSectors : SectorSet := 0xFFFF

/-- The set of one sector. -/
def oneSector (sector : Nat) : SectorSet := 1#16 <<< sector

/-- R61: the lowest sector, from a given one on, that is not in the set. -/
def firstStale (fresh : SectorSet) (start : Nat) : Option Nat :=
  (List.range 16).find? (fun i => decide (start ≤ i) && !fresh.getLsbD i)

/-! ### Bitmaps of a map (R18) -/

/-- The number whose bit s says whether entry s satisfies f. -/
def bitsOf (f : MapEntry → Bool) : List MapEntry → Nat
  | [] => 0
  | e :: t => (f e).toNat + 2 * bitsOf f t

/-- R18: the bitmap of a map: the bit of each segment whose active bank is B. -/
def mapBitmap (es : List MapEntry) : Bitmap := BitVec.ofNat 256 (bitsOf (fun e => decide (e.bank = .b)) es)

/-- R15: the flip set of a commit switch: every entry in READY. -/
def readySet (es : List MapEntry) : Bitmap := BitVec.ofNat 256 (bitsOf (fun e => decide (e.phase = .ready)) es)

/-- R15: the flip set of a rollback switch: every segment whose active bank differs from the one the bitmap assigns
(bit 255 disregarded, R18). -/
def rollbackFlip (es : List MapEntry) (target : Bitmap) : Bitmap := mappedBits (mapBitmap es ^^^ target)

/-! ### Control words (R31, R101) -/

/-- The control words. -/
inductive ControlWord where
  | startCommit
  | abandon
  | accept
  | revert
  deriving DecidableEq, Repr

/-- The four bytes, little-endian, that a program of `data` at `a` carries at `w`, when it covers all four of them. -/
def wordAt (w a : LogicalAddr) (data : List Byte) : Option Word32 :=
  if a.toNat ≤ w.toNat ∧ w.toNat + 4 ≤ a.toNat + data.length then
    let i := w.toNat - a.toNat
    some (data.getD (i + 3) 0 ++ data.getD (i + 2) 0 ++ data.getD (i + 1) 0 ++ data.getD i 0)
  else none

/-- R31: the commit word a program of the session owner carries. -/
def commitWordOf (a : LogicalAddr) (data : List Byte) : Option ControlWord :=
  match wordAt Config.commitWordAddr a data with
  | some w => if w = Config.startCommitWord then some .startCommit
              else if w = Config.abandonWord then some .abandon else none
  | none => none

/-- R101: the acceptance word a program of a port that owns no session carries. -/
def acceptanceWordOf (a : LogicalAddr) (data : List Byte) : Option ControlWord :=
  match wordAt Config.acceptanceWordAddr a data with
  | some w => if w = Config.acceptWord then some .accept
              else if w = Config.revertWord then some .revert else none
  | none => none

/-- Section 12.1: the program of a control word at its own place. -/
def controlProgram : ControlWord → HostRequest
  | .startCommit => .pageProgram Config.commitWordAddr [0x0F, 0x1E, 0xC3, 0xA5]
  | .abandon => .pageProgram Config.commitWordAddr [0x0F, 0xE1, 0xC3, 0xA5]
  | .accept => .pageProgram Config.acceptanceWordAddr [0x11, 0x0A, 0xC3, 0x5A]
  | .revert => .pageProgram Config.acceptanceWordAddr [0x22, 0x0B, 0xC3, 0x5A]

/-! ### Straps (R115, R172, Table 12.10) -/

/-- R172: an open pin is sampled as 0. -/
def pinBit : PinLevel → Bool
  | .high => true
  | .low => false
  | .unconnected => false

/-- Table 12.10: UPD_SEL from UPD_SEL1 and UPD_SEL0. -/
def updSelOf : Bool → Bool → UpdSel
  | false, false => .none
  | false, true => .hp0
  | true, false => .hp1
  | true, true => .both

/-- Table 12.10: TRIAL_LIM from TRIAL_LIM1 and TRIAL_LIM0. -/
def trialLimOf : Bool → Bool → Fin 4
  | false, false => 0
  | false, true => 1
  | true, false => 2
  | true, true => 3

/-- Table 12.10: IDLE_LIM from IDLE_LIM1 and IDLE_LIM0. -/
def idleLimOf : Bool → Bool → IdleLim
  | false, false => .s10
  | false, true => .s60
  | true, false => .s300
  | true, true => .none

/-- R115: the strap values of a sample of the pins. -/
def latchStraps (pins : StrapPins) : Straps :=
  { updSel := updSelOf (pinBit pins.updSel1) (pinBit pins.updSel0)
    chkEn := pinBit pins.chkEn
    trialLim := trialLimOf (pinBit pins.trialLim1) (pinBit pins.trialLim0)
    idleLim := idleLimOf (pinBit pins.idleLim1) (pinBit pins.idleLim0) }

/-- R116: whether UPD_SEL enables a port for update. -/
def updEnabled : UpdSel → Port → Bool
  | .none, _ => false
  | .hp0, .hp0 => true
  | .hp0, .hp1 => false
  | .hp1, .hp0 => false
  | .hp1, .hp1 => true
  | .both, _ => true

/-- R35: the length of the idle timer in ms; with the setting none it has no length. -/
def idleLimitMs : IdleLim → Option Nat
  | .s10 => some 10000
  | .s60 => some 60000
  | .s300 => some 300000
  | .none => none

/-! ### Requests -/

/-- R146: the segment that the outcome of a refused request carries: that of its address, or 0xFF. -/
def requestSeg : HostRequest → BitVec 8
  | .arrayRead a _ => outcomeSeg a
  | .pageProgram a _ => outcomeSeg a
  | .sectorErase a => outcomeSeg a
  | .segmentErase a => outcomeSeg a
  | .writeEnable => 0xFF
  | .writeDisable => 0xFF
  | .statusRead _ => 0xFF
  | .extendedStatusRead _ => 0xFF
  | .identRead _ => 0xFF
  | .softReset => 0xFF
  | .unknownCode _ _ => 0xFF

/-- R151: the requests that a port keeps at the end of a transfer although their host has ended them. -/
def keptAtTransferEnd : HostRequest → Bool
  | .pageProgram _ _ => true
  | .sectorErase _ => true
  | .segmentErase _ => true
  | .writeEnable => true
  | .writeDisable => true
  | .softReset => true
  | .arrayRead _ _ => false
  | .statusRead _ => false
  | .extendedStatusRead _ => false
  | .identRead _ => false
  | .unknownCode _ _ => false

/-- R144: a request of which the host clocks out a given number of bytes. -/
def withClocks (clocks : Nat) : HostRequest → HostRequest
  | .arrayRead a _ => .arrayRead a clocks
  | .statusRead _ => .statusRead clocks
  | .extendedStatusRead _ => .extendedStatusRead clocks
  | .identRead _ => .identRead clocks
  | .unknownCode code _ => .unknownCode code clocks
  | .pageProgram a data => .pageProgram a data
  | .sectorErase a => .sectorErase a
  | .segmentErase a => .segmentErase a
  | .writeEnable => .writeEnable
  | .writeDisable => .writeDisable
  | .softReset => .softReset

/-- R125, R144: the bytes that the host of a port clocks out of its held request from SERVING on. -/
def releaseClocks (x : Release) : Port → Nat
  | .hp0 => x.hp0Clocks
  | .hp1 => x.hp1Clocks

/-- R148: PAGE PROGRAM, SECTOR ERASE and SEGMENT ERASE clear WEL whatever becomes of them. -/
def clearsWel : HostRequest → Bool
  | .pageProgram _ _ => true
  | .sectorErase _ => true
  | .segmentErase _ => true
  | .arrayRead _ _ => false
  | .writeEnable => false
  | .writeDisable => false
  | .statusRead _ => false
  | .extendedStatusRead _ => false
  | .identRead _ => false
  | .softReset => false
  | .unknownCode _ _ => false

/-- The logical address of a request in flight. -/
def InFlight.addr : InFlight → LogicalAddr
  | .sectorErase a => a
  | .segmentErase a => a
  | .program a _ => a

/-- Whether a request in flight is a program. -/
def InFlight.isProgram : InFlight → Bool
  | .program _ _ => true
  | .sectorErase _ => false
  | .segmentErase _ => false

/-- R24: the sectors an opening erase will make fresh. -/
def InFlight.sectors : InFlight → SectorSet
  | .sectorErase a => oneSector (sectorOf a)
  | .segmentErase _ => allSectors
  | .program _ _ => 0

/-- The client slot of a host port (R130). -/
def portClient : Port → Client
  | .hp0 => .hp0
  | .hp1 => .hp1

/-- The host port of a client slot. -/
def clientPort : Client → Option Port
  | .hp0 => some .hp0
  | .hp1 => some .hp1
  | .log => none
  | .work => none

/-- Whether an access is a READ. -/
def Access.isRead : Access → Bool
  | .read _ _ => true
  | .program _ _ => false
  | .sectorErase _ => false
  | .blockErase _ => false

/-- The first physical address of an access. -/
def Access.addr : Access → Nat
  | .read a _ => a
  | .program a _ => a
  | .sectorErase a => a
  | .blockErase a => a

/-- The number of bytes an access covers. -/
def Access.length : Access → Nat
  | .read _ n => n
  | .program _ data => data.length
  | .sectorErase _ => Config.sectorSize
  | .blockErase _ => Config.segmentSize

/-- R128: an access lies within the physical flash. -/
def Access.inFlash (x : Access) : Bool := decide (x.addr + x.length ≤ Config.flashSize)

/-- The number of bytes an erase covers. -/
def EraseKind.length : EraseKind → Nat
  | .sector => Config.sectorSize
  | .block => Config.segmentSize

/-- R136: the run-time limit of an erase. -/
def EraseKind.limit : EraseKind → Nat
  | .sector => Config.sectorEraseLimit
  | .block => Config.blockEraseLimit

/-- R77: where a map area begins. -/
def areaBase : Area → Nat
  | .zero => Config.mapArea0
  | .one => Config.mapArea0 + Config.bankSize

/-- The other map area. -/
def Area.other : Area → Area
  | .zero => .one
  | .one => .zero

/-- R77: where a position of a map area begins. -/
def positionAddr (area : Area) (pos : Nat) : Nat := areaBase area + pos * Config.positionSize

end Sys2Proof.Machine
end

