-- ==== Sys2Proof/Machine/Ops.lean ====
section
/-!
DEFINITION. The named operations on the parts of the state: ports, the fault set, the slots and operations of the Flash
Port, and the entries of the Segment Map. Every meaning is written over them.
-/

namespace Sys2Proof.Machine

/-! ### Parts of the state -/

/-- The state of a host port. -/
def State.port (s : State) : Port → HostPort
  | .hp0 => s.hp0
  | .hp1 => s.hp1

/-- Replaces the state of a host port. -/
def State.setPort (s : State) (p : Port) (q : HostPort) : State :=
  match p with
  | .hp0 => { s with hp0 := q }
  | .hp1 => { s with hp1 := q }

/-- Replaces the map entries. -/
def State.setEntries (s : State) (es : List MapEntry) : State := { s with map := { s.map with entries := es } }

/-- The map entry of a segment. -/
def State.entry (s : State) (seg : Nat) : MapEntry := entryOf s.map.entries seg

/-- Replaces the map entry of a segment. -/
def State.setEntry (s : State) (seg : Nat) (e : MapEntry) : State := s.setEntries (s.map.entries.set seg e)

/-- Replaces the flash contents. -/
def State.setMem (s : State) (m : List Host.Cell) : State := { s with mem := m }

/-- Replaces the state of the Flash Port. -/
def State.setFlash (s : State) (f : FlashPort) : State := { s with flash := f }

/-- Replaces the update lock and session record. -/
def State.setSession (s : State) (x : Session) : State := { s with session := x }

/-- Replaces the commit record. -/
def State.setCommit (s : State) (c : CommitRecord) : State := { s with commit := c }

/-- Replaces the state of the Log Unit. -/
def State.setLog (s : State) (l : LogUnit) : State := { s with log := l }

/-- Replaces the state of the Image State unit. -/
def State.setImage (s : State) (i : ImageUnit) : State := { s with image := i }

/-- Replaces the state of the Start-up Sequencer. -/
def State.setSeq (s : State) (q : Sequencer) : State := { s with seq := q }

/-- Replaces the state of the Check Unit and of the reader it works for. -/
def State.setCheck (s : State) (c : CheckUnit) (r : Option Reader) : State := { s with check := c, reader := r }

/-- R162: the part is past the start of SERVING. -/
def State.serving (s : State) : Bool := decide (s.seq.phase = .serving)

/-! ### The fault set (R160, R161) -/

/-- R160: a raised member is added. -/
def FaultSet.add (f : FaultSet) : FaultMember → FaultSet
  | .flashTimeout => { f with flashTimeout := true }
  | .logFault => { f with logFault := true }
  | .logCorrupt => { f with logCorrupt := true }
  | .noValidImage => { f with noValidImage := true }
  | .trialExpired => { f with trialExpired := true }

/-- R161: a switch that takes effect removes NO_VALID_IMAGE and TRIAL_EXPIRED. -/
def FaultSet.afterSwitch (f : FaultSet) : FaultSet := { f with noValidImage := false, trialExpired := false }

/-- Whether the fault set holds a member. -/
def FaultSet.nonempty (f : FaultSet) : Bool :=
  f.flashTimeout || f.logFault || f.logCorrupt || f.noValidImage || f.trialExpired

/-- R160: a block has the Status Unit raise a member. -/
def raiseFault (m : FaultMember) (s : State) : State := { s with faults := s.faults.add m }

/-! ### Slots and operations of the Flash Port (chapter 8) -/

/-- The slot of a client. -/
def FlashPort.slot (f : FlashPort) : Client → Slot
  | .hp0 => f.slotHp0
  | .hp1 => f.slotHp1
  | .log => f.slotLog
  | .work => f.slotWork

/-- Replaces the slot of a client. -/
def FlashPort.setSlot (f : FlashPort) (c : Client) (x : Slot) : FlashPort :=
  match c with
  | .hp0 => { f with slotHp0 := x }
  | .hp1 => { f with slotHp1 := x }
  | .log => { f with slotLog := x }
  | .work => { f with slotWork := x }

/-- Whether a slot holds a pending READ. -/
def Slot.pendingRead : Slot → Bool
  | .pending a => a.isRead
  | .granted _ => false
  | .empty => false

/-- Whether a READ is pending in any slot. -/
def FlashPort.readPending (f : FlashPort) : Bool :=
  f.slotHp0.pendingRead || f.slotHp1.pendingRead || f.slotLog.pendingRead || f.slotWork.pendingRead

/-- 8.2: the flash is idle. -/
def FlashPort.idle (f : FlashPort) : Bool := f.transfer.isNone && f.erase.isNone && !f.resetting

/-- R137, R139, R140: with a READ pending and budget left a running erase has a suspend issued; a suspended erase with no
READ pending and none in flight is resumed. -/
def FlashPort.settle (f : FlashPort) : FlashPort :=
  match f.erase with
  | none => f
  | some e =>
    match e.condition with
    | .running =>
      if e.suspends < Config.suspendBudget ∧ f.readPending = true then
        { f with erase := some { e with condition := .suspending } }
      else f
    | .suspending => f
    | .suspended =>
      if f.transfer = none ∧ f.readPending = false then { f with erase := some { e with condition := .running } } else f

/-- R130: a client places an access into its EMPTY slot; while the slot is not EMPTY it places none. -/
def FlashPort.place (f : FlashPort) (c : Client) (a : Access) : FlashPort :=
  if f.slot c = .empty then (f.setSlot c (.pending a)).settle else f

/-- R130: a client's access is placed. -/
def place (c : Client) (a : Access) (s : State) : State := s.setFlash (s.flash.place c a)

/-- R130: a host port withdraws a pending READ; R137 and R139 then apply. -/
def FlashPort.withdraw (f : FlashPort) (c : Client) : FlashPort :=
  if (f.slot c).pendingRead then (f.setSlot c .empty).settle else f

/-- Whether a READ of a client is in flight. -/
def FlashPort.readInFlight (f : FlashPort) (c : Client) : Option (Nat × Nat) :=
  match f.transfer with
  | some t =>
    if t.client = c then
      match t.access with
      | .read a n => some (a, n)
      | .program _ _ => none
      | .sectorErase _ => none
      | .blockErase _ => none
    else none
  | none => none

/-- R135: the PROGRAM in flight, with its run time below the limit. -/
def FlashPort.programInFlight (f : FlashPort) : Option (Client × Nat × List Byte) :=
  match f.transfer with
  | some t =>
    match t.access with
    | .program a data => if t.runTime < Config.programLimit then some (t.client, a, data) else none
    | .read _ _ => none
    | .sectorErase _ => none
    | .blockErase _ => none
  | none => none

/-- R135, R137: the erase that the flash can report complete: RUNNING or SUSPENDING, with its run time below the limit. -/
def FlashPort.eraseRunning (f : FlashPort) : Option FlashErase :=
  match f.erase with
  | some e => if e.condition ≠ .suspended ∧ e.runTime < e.kind.limit then some e else none
  | none => none

/-- R134, R135: the transfer in flight ends and the client's slot becomes EMPTY. -/
def FlashPort.endTransfer (f : FlashPort) (c : Client) : FlashPort :=
  { f.setSlot c .empty with transfer := none }

/-- R135: the erase in progress ends and the client's slot becomes EMPTY. -/
def FlashPort.endErase (f : FlashPort) (c : Client) : FlashPort :=
  { f.setSlot c .empty with erase := none }

/-- Whether a range of the flash meets the block under erase. -/
def FlashPort.underErase (f : FlashPort) (a n : Nat) : Bool :=
  match f.erase with
  | some e => decide (a < e.addr + e.kind.length ∧ e.addr < a + n)
  | none => false

/-- R134: the bytes a READ returns are what the flash holds. What the block under a suspended erase returns is a free
value (log entry 5). -/
def readFlash (s : State) (a n : Nat) : List Byte :=
  if s.flash.underErase a n then (List.range n).map (fun i => Config.suspendedRead s.freeCount (a + i))
  else memReadBytes s.mem a n

/-- R134: a READ of n bytes at `a` for a client completes, before the arbiter looks at the slots. -/
def endRead (c : Client) (a n : Nat) (s : State) : State :=
  { s with
    flash := s.flash.endTransfer c
    freeCount := if s.flash.underErase a n then s.freeCount + 1 else s.freeCount }

/-- R139: the arbiter looks at the slots; a suspended erase is resumed when no READ is pending. -/
def lookAfterRead (s : State) : State := s.setFlash s.flash.settle

/-- R134, R139: a READ of n bytes at `a` for a client completes; a suspended erase is resumed when no READ is pending. -/
def finishRead (c : Client) (a n : Nat) (s : State) : State := lookAfterRead (endRead c a n s)

/-- R139: a READ completes and the client goes on with `f`, which may place its next READ. Either the completion is taken
first, or what the client places is, and the arbiter then looks at the slots. -/
def finishReadThen (nextFirst : Bool) (c : Client) (a n : Nat) (f : State → State) (s : State) : State :=
  if nextFirst then lookAfterRead (f (endRead c a n s)) else f (finishRead c a n s)

/-- What a report says is left of the operation. -/
def reportLeft : FlashReport → Remains
  | .success => []
  | .failed left => left

/-- Whether a report says SUCCESS. -/
def reportOk : FlashReport → Bool
  | .success => true
  | .failed _ => false

/-- R135, R136: a PROGRAM ends: the flash holds what it took, the transfer ends and the slot becomes EMPTY. -/
def finishProgram (c : Client) (a : Nat) (data : List Byte) (left : Remains) (s : State) : State :=
  { s with mem := memProgram s.mem a data left, flash := s.flash.endTransfer c }

/-- R135, R136: an erase ends: the flash holds what is left, the erase ends and the slot becomes EMPTY. -/
def finishErase (e : FlashErase) (left : Remains) (s : State) : State :=
  { s with mem := memErase s.mem e.addr e.kind.length left, flash := s.flash.endErase e.client }

/-- R133: the order in which the arbiter looks at the slots, beginning with the client after the pointer. -/
def rotation : Client → List Client
  | .hp0 => [.hp1, .log, .work, .hp0]
  | .hp1 => [.log, .work, .hp0, .hp1]
  | .log => [.work, .hp0, .hp1, .log]
  | .work => [.hp0, .hp1, .log, .work]

/-- R133: whether the flash condition admits an access. -/
def FlashPort.admits (f : FlashPort) (a : Access) : Bool :=
  f.idle ||
    (f.transfer.isNone && !f.resetting && a.isRead &&
      (match f.erase with
       | some e => decide (e.condition = .suspended)
       | none => false))

/-- R133: the pending access of a client, when the flash condition admits it. -/
def FlashPort.admitted (f : FlashPort) (c : Client) : Option (Client × Access) :=
  match f.slot c with
  | .pending a => if f.admits a then some (c, a) else none
  | .granted _ => none
  | .empty => none

/-- R133: the access the arbiter grants. -/
def FlashPort.choice (f : FlashPort) : Option (Client × Access) := (rotation f.pointer).findSome? f.admitted

/-- R133: the grant of an access: the pointer moves, the slot is GRANTED and the command is issued. -/
def FlashPort.grant (f : FlashPort) (c : Client) (a : Access) : FlashPort :=
  let g := { f.setSlot c (.granted a) with pointer := c }
  match a with
  | .read _ _ => { g with transfer := some { client := c, access := a, runTime := 0 } }
  | .program _ _ => { g with transfer := some { client := c, access := a, runTime := 0 } }
  | .sectorErase addr =>
    { g with
      erase := some { client := c, kind := .sector, addr := addr, runTime := 0, suspends := 0, condition := .running } }.settle
  | .blockErase addr =>
    { g with
      erase := some { client := c, kind := .block, addr := addr, runTime := 0, suspends := 0, condition := .running } }.settle

/-- R133: the arbiter looks at the slots and grants the first access that is admitted, if there is one. An access outside
the physical flash is a fault (log entry 9). -/
def grantNext (s : State) : Host.Outcome State Fault Refusal :=
  match s.flash.choice with
  | some (c, a) => if a.inFlash then .next (s.setFlash (s.flash.grant c a)) else .fault .outsideFlash
  | none => .next s

/-! ### The Segment Map (chapter 1) -/

/-- Applies a function to every entry with its segment number, the first being numbered k. -/
def mapEntriesFrom (k : Nat) (f : Nat → MapEntry → MapEntry) : List MapEntry → List MapEntry
  | [] => []
  | e :: t => f k e :: mapEntriesFrom (k + 1) f t

/-- R3: an open request sets a STABLE entry to OPENING and keeps the named sectors; any other entry is left as it was. -/
def MapEntry.openRequest (e : MapEntry) (sectors : SectorSet) : MapEntry :=
  if e.phase = .stable then { e with phase := .opening, fresh := 0, damaged := false, toOpen := sectors } else e

/-- R4: an opening ends with the entry OPEN. -/
def MapEntry.openDone (e : MapEntry) : MapEntry :=
  { e with phase := .opened, fresh := e.toOpen, damaged := false, toOpen := 0 }

/-- R4, R7, R17: an entry returns to STABLE with its bank unchanged. -/
def MapEntry.toStable (e : MapEntry) : MapEntry :=
  { e with phase := .stable, fresh := 0, damaged := false, toOpen := 0 }

/-- R5: the add-sector update, taken in OPEN only. -/
def MapEntry.addSector (e : MapEntry) (sector : Nat) : MapEntry :=
  if e.phase = .opened then { e with fresh := e.fresh ||| oneSector sector } else e

/-- R5: the mark-damaged update, taken in OPEN only. -/
def MapEntry.markDamaged (e : MapEntry) : MapEntry := if e.phase = .opened then { e with damaged := true } else e

/-- R5: the full-erase update, taken in OPEN only. -/
def MapEntry.fullErase (e : MapEntry) : MapEntry :=
  if e.phase = .opened then { e with fresh := allSectors, damaged := false } else e

/-- R7: an abandon request returns an entry in OPEN, FILLING or READY to STABLE. -/
def MapEntry.abandoned (e : MapEntry) : MapEntry :=
  match e.phase with
  | .stable => e
  | .opening => e
  | .opened => e.toStable
  | .filling => e.toStable
  | .ready => e.toStable

/-- R6: the fill of an OPEN entry begins: READY when the mask is full, else FILLING. -/
def MapEntry.beginFill (e : MapEntry) : MapEntry :=
  if e.phase = .opened then { e with phase := if e.fresh = allSectors then .ready else .filling } else e

/-- R6: the fill of an entry in FILLING ends. -/
def MapEntry.endFill (e : MapEntry) : MapEntry := if e.phase = .filling then { e with phase := .ready } else e

/-- R17: an entry of the flip set changes its active bank; one of a commit switch becomes STABLE. -/
def MapEntry.flip (r : SwitchRequester) (e : MapEntry) : MapEntry :=
  match r with
  | .commitEngine => { e.toStable with bank := e.bank.other }
  | .imageState => { e with bank := e.bank.other }

/-- R17: every entry of the flip set changes bank together. -/
def flipEntries (sw : PendingSwitch) (es : List MapEntry) : List MapEntry :=
  mapEntriesFrom 0 (fun seg e => if sw.flip.getLsbD seg then e.flip sw.requester else e) es

/-- R18: the Segment Map takes a bitmap from replay. -/
def banksFrom (bm : Bitmap) (es : List MapEntry) : List MapEntry :=
  mapEntriesFrom 0 (fun seg e => { e with bank := if bm.getLsbD seg then .b else .a }) es

/-- R58: the lowest damaged segment. -/
def lowestDamaged : Nat → List MapEntry → Option Nat
  | _, [] => none
  | k, e :: t => if e.damaged then some k else lowestDamaged (k + 1) t

/-- Changes one map entry. -/
def updateEntry (seg : Nat) (f : MapEntry → MapEntry) (s : State) : State := s.setEntry seg (f (s.entry seg))

end Sys2Proof.Machine
end

