-- ==== Sys2Proof/Machine/Flags.lean ====
section
/-!
DEFINITION. What the part reports: outcome codes and the sticky bits they set, SR1, SR2, the extended status record, the
indicator lines and the wait outputs (chapters 9, 10 and 12).
-/

namespace Sys2Proof.Machine

/-- Table 12.8: the byte of an outcome code. -/
def Code.byte : Code → Byte
  | .success => 0x00
  | .portBusy => 0x10
  | .notUpdatePort => 0x11
  | .sessionOther => 0x12
  | .noSession => 0x13
  | .sectorNotFresh => 0x14
  | .outOfRange => 0x15
  | .pageCross => 0x16
  | .notOnTrial => 0x17
  | .noTarget => 0x18
  | .updatesLocked => 0x19
  | .engineBusy => 0x1A
  | .committed => 0x20
  | .headerBad => 0x21
  | .staleSerial => 0x22
  | .checkMismatch => 0x23
  | .shadowDamaged => 0x24
  | .fillFail => 0x25
  | .logFail => 0x26
  | .abandonedIdle => 0x27
  | .abandonedOwner => 0x28
  | .confirmed => 0x29
  | .rolledBack => 0x2A
  | .opFailed => 0x30

/-- Table 9.3: whether an outcome sets REFUSED. -/
def Code.refuses : Code → Bool
  | .portBusy => true
  | .notUpdatePort => true
  | .sessionOther => true
  | .noSession => true
  | .sectorNotFresh => true
  | .outOfRange => true
  | .pageCross => true
  | .notOnTrial => true
  | .noTarget => true
  | .updatesLocked => true
  | .engineBusy => true
  | .headerBad => true
  | .staleSerial => true
  | .checkMismatch => true
  | .shadowDamaged => true
  | .fillFail => true
  | .logFail => true
  | .success => false
  | .committed => false
  | .confirmed => false
  | .rolledBack => false
  | .abandonedIdle => false
  | .abandonedOwner => false
  | .opFailed => false

/-- R156: BUSY is set while the port is OP_BUSY or COMMIT_BUSY. -/
def HostPort.busy (q : HostPort) : Bool :=
  match q.state with
  | .opBusy => true
  | .commitBusy => true
  | .held => false
  | .ready => false
  | .transfer => false

/-- The bit n of a byte as a number to be added. -/
def bitOf (v : Bool) (n : Nat) : Byte := (BitVec.ofBool v).setWidth 8 <<< n

/-- R156, Table 12.5: SR1. -/
def HostPort.sr1 (q : HostPort) : Byte :=
  bitOf q.busy 0 ||| bitOf q.wel 1 ||| bitOf q.refused 2 ||| bitOf q.progFail 3 ||| bitOf q.eraseFail 4

/-- Table 10.2: the session field of SR2. -/
inductive SessionField where
  | nobody
  | own
  | other
  | commit
  deriving DecidableEq, Repr

/-- R166: the session field as a port sees it. -/
def sessionField (x : Session) (p : Port) : SessionField :=
  match x.lock with
  | .free => .nobody
  | .rollback => .other
  | .session => if x.state = .closing then .commit else if x.owner = some p then .own else .other

/-- Table 12.6: the code of the session field. -/
def SessionField.code : SessionField → Byte
  | .nobody => 0
  | .own => 1
  | .other => 2
  | .commit => 3

/-- Table 12.6: the code of the image state. -/
def ImageState.code : ImageState → Byte
  | .virgin => 0
  | .confirmed => 1
  | .trial => 2
  | .confirming => 3

/-- R162, R165: the IMAGE_OK line. -/
def State.lineImageOk (s : State) : Bool := s.serving && s.image.imageOk

/-- R162, R163: the FAULT line. -/
def State.lineFault (s : State) : Bool := s.serving && s.faults.nonempty

/-- R162, R164: the UPDATING line. -/
def State.lineUpdating (s : State) : Bool :=
  s.serving && (decide (s.session.lock ≠ .free) || decide (s.image.state = .confirming))

/-- R166, R167, Table 12.6: SR2 as a port sees it. -/
def State.sr2 (s : State) (p : Port) : Byte :=
  (sessionField s.session p).code ||| (s.image.state.code <<< 2) ||| bitOf s.image.targetValid 4 |||
    bitOf s.lineImageOk 5

/-- Table 12.7: the fault set as a byte. -/
def FaultSet.byte (f : FaultSet) : Byte :=
  bitOf f.flashTimeout 0 ||| bitOf f.logFault 1 ||| bitOf f.logCorrupt 2 ||| bitOf f.noValidImage 3 |||
    bitOf f.trialExpired 4

/-- R157, Table 12.7: the extended status record of a port. -/
def State.extendedStatus (s : State) (p : Port) : List Byte :=
  [(s.port p).sr1, s.sr2 p, (s.port p).code.byte, (s.port p).seg, s.faults.byte] ++ le32Bytes s.image.serial

/-- R157, R158: fixed bytes followed by 0xFF for every further byte clocked out. -/
def clockedOut (bytes : List Byte) (clocks : Nat) : List Byte :=
  (bytes ++ List.replicate (clocks - bytes.length) 0xFF).take clocks

/-- R144, R150: whether the wait output is asserted when the host would clock a byte out of the port now: the buffer holds
the bytes of the READ in flight that have arrived. -/
def HostPort.wait (q : HostPort) : Bool :=
  match q.state with
  | .held => true
  | .transfer =>
    match q.transfer with
    | some t => t.ended || t.buffer.isEmpty
    | none => false
  | .ready => false
  | .opBusy => false
  | .commitBusy => false

/-! ### What a result does to a port (R153) -/

/-- R153, Table 9.3: writes an outcome and sets the sticky bits of its code. OP_FAILED sets PROG_FAIL for a program and
ERASE_FAIL for an erase. -/
def HostPort.outcome (q : HostPort) (code : Code) (seg : BitVec 8) : HostPort :=
  { q with
    code := code
    seg := seg
    refused := q.refused || code.refuses
    progFail := q.progFail || (decide (code = .opFailed) && (q.inFlight.map InFlight.isProgram == some true))
    eraseFail := q.eraseFail || (decide (code = .opFailed) && (q.inFlight.map InFlight.isProgram == some false)) }

/-- R153, R154: a port that is OP_BUSY or COMMIT_BUSY becomes READY, with no request in flight. -/
def HostPort.toReady (q : HostPort) : HostPort :=
  match q.state with
  | .opBusy => { q with state := .ready, inFlight := none }
  | .commitBusy => { q with state := .ready, inFlight := none }
  | .held => q
  | .ready => q
  | .transfer => q

/-- R153: the result of a request: the outcome is written and the port becomes READY. -/
def HostPort.result (q : HostPort) (code : Code) (seg : BitVec 8) : HostPort := (q.outcome code seg).toReady

end Sys2Proof.Machine
end

