-- ==== Sys2Proof/Machine/PortOps.lean ====
section
/-!
DEFINITION. The shared operations of a host port: results, the chunks of a read transfer with their pinning, and the
arrival and delivery of bytes (R14, R16, R132, R134, R144, R150, R151, R153).
-/

namespace Sys2Proof.Machine

/-- Changes the state of a port. -/
def updatePort (p : Port) (f : HostPort → HostPort) (s : State) : State := s.setPort p (f (s.port p))

/-- R35: the idle timer runs again when the result of a request of the session owner is handed back in ACTIVE. -/
def Session.resumeTimer (x : Session) (p : Port) : Session :=
  if x.state = .active ∧ x.owner = some p then
    match x.timer with
    | .paused ms => { x with timer := .running ms }
    | .running _ => x
    | .stopped => x
  else x

/-- R23, R153: a result is handed back to a port for its request in flight. -/
def giveResult (p : Port) (code : Code) (seg : BitVec 8) (s : State) : State :=
  (updatePort p (fun q => q.result code seg) s).setSession (s.session.resumeTimer p)

/-- R10, R150: the view a chunk of a transfer is translated under. -/
def chunkView (p : Port) (t : HostTransfer) (x : Session) : View :=
  if t.rule = .owner ∧ x.state = .active ∧ x.owner = some p then .update else .stable

/-- R132: the first logical address of the next chunk: that after the bytes still in the buffer. -/
def HostTransfer.chunkAddr (t : HostTransfer) : LogicalAddr := t.next + BitVec.ofNat 24 t.buffer.length

/-- R150: forms the next chunk of a transfer. A chunk of segment 255 is 0xFF bytes put straight into the buffer; any other
is translated at its first byte and its READ is placed in the slot of the port. -/
def formChunk (p : Port) (s : State) : State :=
  match (s.port p).transfer with
  | none => s
  | some t =>
    let a := t.chunkAddr
    if segOf a < Config.mappedSegments then
      place (portClient p)
        (.read (translate (chunkView p t s.session) s.map.entries (segOf a) (offsetOf a)) (chunkLength a)) s
    else
      updatePort p
        (fun q => { q with transfer := some { t with buffer := t.buffer ++ List.replicate (chunkLength a) 0xFF } }) s

/-- R14, R16: the first chunk of a transfer that has none yet is translated, and pins the current epoch; while a switch is
pending it is held. -/
def firstChunk (p : Port) (s : State) : State :=
  match (s.port p).transfer with
  | none => s
  | some t =>
    if t.epoch = none ∧ t.ended = false ∧ s.map.switch = none then
      formChunk p
        { (updatePort p (fun q => { q with transfer := some { t with epoch := some s.map.epoch } }) s) with
          map := { s.map with pinned := s.map.pinned + 1 } }
    else s

/-- R134: the bytes of the READ in flight of a port that are handed over next, at most k of them, in increasing address order.
The last byte of a READ comes with its completion. -/
def arrivingBytes (p : Port) (t : HostTransfer) (k : Nat) (s : State) : List Byte :=
  match s.flash.readInFlight (portClient p) with
  | some (a, n) => ((readFlash s a n).drop t.arrived).take (min k (n - 1 - t.arrived))
  | none => []

/-- R134, R150: bytes of a chunk pass to the buffer while its READ is in flight; those of an ended transfer are discarded
(R151). -/
def takeArriving (p : Port) (k : Nat) (s : State) : State :=
  match (s.port p).transfer with
  | none => s
  | some t =>
    if t.ended then s
    else
      let bytes := arrivingBytes p t k s
      updatePort p
        (fun q => { q with transfer := some { t with buffer := t.buffer ++ bytes, arrived := t.arrived + bytes.length } }) s

/-- R144, R150: the host clocks out n bytes of a transfer. Bytes of the buffer are delivered and advance the address; when
the buffer is empty wait is asserted, and a byte clocked all the same reads 0xFF and is not delivered. -/
def deliver (p : Port) (n : Nat) (s : State) : State :=
  match (s.port p).transfer with
  | none => s
  | some t =>
    if t.ended then s
    else
      updatePort p
        (fun q =>
          { q with
            dataOut := clockedOut t.buffer n
            transfer := some
              { t with
                next := t.next + BitVec.ofNat 24 (min n t.buffer.length)
                buffer := t.buffer.drop n } })
        s

/-- R134, R144, R150: the host clocks bytes out of a transfer, after bytes of its READ in flight have arrived. -/
def clockBytes (p : Port) (x : Clocking) (s : State) : State := deliver p x.clocks (takeArriving p x.arrived s)

/-- R150: whether the port may form the next chunk: the first has been translated, no READ of the port is pending or
granted, and no more than 256 bytes remain undelivered. -/
def mayFormChunk (p : Port) (s : State) : Bool :=
  match (s.port p).transfer with
  | none => false
  | some t =>
    t.epoch.isSome && !t.ended && decide (s.flash.slot (portClient p) = .empty) &&
      decide (t.buffer.length ≤ Config.bufferLow)

/-- R14: a pinned transfer that ends unpins. -/
def unpin (t : HostTransfer) (s : State) : State :=
  if t.epoch.isSome then { s with map := { s.map with pinned := s.map.pinned - 1 } } else s

/-- Whether a slot is GRANTED. -/
def Slot.isGranted : Slot → Bool
  | .granted _ => true
  | .pending _ => false
  | .empty => false

/-- R151: the host releases the select of a transfer it has not ended: unpinned, a pending READ withdrawn, the buffer
discarded; the port becomes READY unless a READ of the transfer is granted. -/
def endTransfer (p : Port) (s : State) : State :=
  match (s.port p).transfer with
  | none => s
  | some t =>
    if t.ended then s
    else
      let s1 := unpin t (s.setFlash (s.flash.withdraw (portClient p)))
      if (s1.flash.slot (portClient p)).isGranted then
        updatePort p (fun q => { q with transfer := some { t with ended := true, buffer := [], epoch := none } }) s1
      else updatePort p (fun q => { q with transfer := none, state := .ready }) s1

end Sys2Proof.Machine
end

