-- ==== Sys2Proof/Machine/SessionOps.lean ====
section
/-!
DEFINITION. The shared operations of the Session Controller (chapter 2): the idle timer, the opening of a segment, the
owner's erases and programs, and the ways a session ends.
-/

namespace Sys2Proof.Machine

/-- R35: the timer is loaded with the full limit and paused; with the setting none it has no length. -/
def loadTimer (s : State) : State :=
  s.setSession
    { s.session with
      timer := match idleLimitMs s.seq.straps.idleLim with
        | some ms => .paused ms
        | none => .stopped }

/-- R82: a request joins the tail of the append queue. -/
def askAppend (b : RecordBody) (s : State) : State := s.setLog { s.log with queue := s.log.queue ++ [b] }

/-- R24: the opening continues: the open request is sent, the open count increases and the block erase of the whole shadow
is placed in the slot of the owner port. -/
def openSegment (p : Port) (f : InFlight) (s : State) : State :=
  let seg := segOf f.addr
  if (s.entry seg).phase = .stable then
    place (portClient p) (.blockErase (shadowAddr s.map.entries seg 0))
      ((updateEntry seg (fun e => e.openRequest f.sectors) s).setSession
        { s.session with openCount := s.session.openCount + 1 })
  else s

/-- R24: the owner's erase opens its segment; the first opening of a session asks for an OPEN record before. -/
def beginOpening (p : Port) (f : InFlight) (s : State) : State :=
  if s.session.openLogged then openSegment p f s else askAppend .opened s

/-- R27: a SECTOR ERASE by the owner in ACTIVE. -/
def ownerSectorErase (p : Port) (a : LogicalAddr) (s : State) : State :=
  let seg := segOf a
  if (s.entry seg).phase = .stable then beginOpening p (.sectorErase a) s
  else if (s.entry seg).fresh.getLsbD (sectorOf a) then
    place (portClient p) (.sectorErase (shadowAddr s.map.entries seg (sectorOf a * Config.sectorSize))) s
  else giveResult p .success (outcomeSeg a) (updateEntry seg (fun e => e.addSector (sectorOf a)) s)

/-- R28: a SEGMENT ERASE by the owner in ACTIVE. -/
def ownerSegmentErase (p : Port) (a : LogicalAddr) (s : State) : State :=
  let seg := segOf a
  if (s.entry seg).phase = .stable then beginOpening p (.segmentErase a) s
  else place (portClient p) (.blockErase (shadowAddr s.map.entries seg 0)) s

/-- An erase by the owner in ACTIVE, once the idle timer has been loaded (R35). -/
def ownerErase (p : Port) (f : InFlight) (s : State) : State :=
  match f with
  | .sectorErase a => ownerSectorErase p a (loadTimer s)
  | .segmentErase a => ownerSegmentErase p a (loadTimer s)
  | .program _ _ => s

/-- R21: a session starts. -/
def startSession (p : Port) (s : State) : State :=
  s.setSession
    { lock := .session, state := .active, owner := some p, openCount := 0, openLogged := false,
      timer := s.session.timer, endReason := none }

/-- Whether a port owns an ACTIVE session. -/
def ownsActive (s : State) (p : Port) : Bool := decide (s.session.state = .active ∧ s.session.owner = some p)

/-- R20, R21, R40: an erase that reaches the Session Controller. -/
def sessionErase (p : Port) (f : InFlight) (s : State) : State :=
  if ownsActive s p then ownerErase p f s
  else
    match s.session.lock with
    | .free =>
      if s.log.lock = .ok then ownerErase p f (startSession p s)
      else giveResult p .updatesLocked (outcomeSeg f.addr) s
    | .session => giveResult p .sessionOther (outcomeSeg f.addr) s
    | .rollback => giveResult p .engineBusy (outcomeSeg f.addr) s

/-- R29: whether the bytes of a program lie in a fresh sector of an OPEN entry. -/
def programAllowed (s : State) (a : LogicalAddr) : Bool :=
  decide ((s.entry (segOf a)).phase = .opened) && (s.entry (segOf a)).fresh.getLsbD (sectorOf a)

/-- R29: a program of ordinary data by the owner in ACTIVE. -/
def ownerProgram (p : Port) (a : LogicalAddr) (data : List Byte) (s : State) : State :=
  if programAllowed s a then
    place (portClient p) (.program (shadowAddr s.map.entries (segOf a) (offsetOf a)) data) s
  else giveResult p .sectorNotFresh (outcomeSeg a) s

/-- R37: the end of a session in one step: with an open count above 0 every entry in OPEN, FILLING or READY returns to
STABLE, and the session record and the lock take their values in NONE. -/
def endSession (s : State) : State :=
  (if 0 < s.session.openCount then s.setEntries (s.map.entries.map MapEntry.abandoned) else s).setSession Session.reset

/-- R37: an abandon completes, and the owner port is handed the outcome of the reason. -/
def abandonSession (r : EndReason) (s : State) : State :=
  match s.session.owner with
  | none => endSession s
  | some p =>
    match r with
    | .idle => updatePort p (fun q => q.outcome .abandonedIdle 0xFF) (endSession s)
    | .owner => updatePort p (fun q => q.result .abandonedOwner 0xFF) (endSession s)
    | .verdict =>
      match s.commit.verdict with
      | some v => updatePort p (fun q => q.result v.1 v.2) (endSession s)
      | none => endSession s

/-- R39: the owner's operation completes in ENDING: its failure sets PROG_FAIL or ERASE_FAIL and the abandon completes. -/
def endingComplete (p : Port) (isProgram ok : Bool) (s : State) : State :=
  abandonSession .owner
    (updatePort p
      (fun q =>
        { q with
          progFail := q.progFail || (isProgram && !ok)
          eraseFail := q.eraseFail || (!isProgram && !ok) })
      s)

/-- The outcome segment of a segment number. -/
def segByte (seg : Nat) : BitVec 8 := BitVec.ofNat 8 seg

/-- R4, R26, R39: the shadow block erase of an opening completes. -/
def openingDone (p : Port) (seg : Nat) (ok : Bool) (s : State) : State :=
  if s.session.state = .ending then endingComplete p false ok (updateEntry seg MapEntry.toStable s)
  else if ok then giveResult p .success (segByte seg) (updateEntry seg MapEntry.openDone s)
  else
    giveResult p .opFailed (segByte seg)
      ((updateEntry seg MapEntry.toStable s).setSession { s.session with openCount := s.session.openCount - 1 })

/-- R27, R39: the physical erase of a fresh shadow sector completes. -/
def sectorEraseDone (p : Port) (seg : Nat) (ok : Bool) (s : State) : State :=
  if s.session.state = .ending then endingComplete p false ok s
  else if ok then giveResult p .success (segByte seg) s
  else giveResult p .opFailed (segByte seg) (updateEntry seg MapEntry.markDamaged s)

/-- R28, R39: the block erase of the shadow of an OPEN entry completes. -/
def blockEraseDone (p : Port) (seg : Nat) (ok : Bool) (s : State) : State :=
  if s.session.state = .ending then endingComplete p false ok s
  else if ok then giveResult p .success (segByte seg) (updateEntry seg MapEntry.fullErase s)
  else giveResult p .opFailed (segByte seg) (updateEntry seg MapEntry.markDamaged s)

/-- The erase of a host port completes: which of the three it is follows from its kind and the phase of its entry. -/
def ownerEraseDone (p : Port) (e : FlashErase) (ok : Bool) (s : State) : State :=
  let seg := segOfPhys e.addr
  match e.kind with
  | .sector => sectorEraseDone p seg ok s
  | .block => if (s.entry seg).phase = .opening then openingDone p seg ok s else blockEraseDone p seg ok s

/-- R38: a soft reset that reaches the Session Controller from a port that owns the session. -/
def sessionSoftReset (p : Port) (s : State) : State :=
  match s.session.state with
  | .active =>
    if (s.port p).inFlight = none then abandonSession .owner s
    else s.setSession { s.session with state := .ending, endReason := some .owner, timer := .stopped }
  | .nobody => s
  | .closing => s
  | .ending => s

end Sys2Proof.Machine
end

