-- ==== Sys2Proof/Machine/CommitOps.lean ====
section
/-!
DEFINITION. The Check Unit and the readers it works for (chapter 3), the stages of the Commit Engine (chapter 4) and the
start-up check of the Start-up Sequencer (chapter 7).
-/

namespace Sys2Proof.Machine

/-! ### Header capture and summary (R41 to R45) -/

/-- R43: the largest used length of a segment. -/
def usedLimitOf (seg : Nat) : Nat := if seg = 0 then Config.usedLimit0 else Config.usedLimit

/-- R45: the reader captures word k of the header (bytes 4k to 4k + 3). The words from 0x010 on are used lengths and check
values in turn; a check value is not captured. -/
def HeaderCapture.word (c : HeaderCapture) (k : Nat) (w : Word32) : HeaderCapture :=
  if k = 0 then { c with magic := w }
  else if k = 1 then { c with format := w.extractLsb' 0 16, count := w.extractLsb' 16 16 }
  else if k = 2 then { c with serial := w }
  else if k = 3 then { c with headerCrc := w }
  else if k % 2 = 0 then
    { c with used := c.used ++ [w], exceeded := c.exceeded || decide (usedLimitOf ((k - 4) / 2) < w.toNat) }
  else c

/-- R45: the reader captures the words of a chunk of the header range, the first being word k. -/
def captureWords (c : HeaderCapture) (k : Nat) : List Byte → HeaderCapture
  | b0 :: b1 :: b2 :: b3 :: t => captureWords (c.word k (b3 ++ b2 ++ b1 ++ b0)) (k + 1) t
  | _ => c

/-- R44, R45: the header summary, from the capture and the CRC-32 the Check Unit hands back. -/
def headerSummary (c : HeaderCapture) (crc : Word32) : HeaderSummary :=
  { valid :=
      decide (c.magic = Config.imageMagic) && decide (c.format = Config.imageFormat) &&
        decide (c.count = Config.descriptorCount) && decide (c.serial ≠ 0) && decide (c.serial ≠ 0xFFFFFFFF) &&
        decide (c.headerCrc = crc) && !c.exceeded
    serial := c.serial
    headerCrc := c.headerCrc
    used := c.used }

/-! ### The Check Unit (R49 to R52) -/

/-- R52: the bytes of the header CRC field enter a header range as 0x00. -/
def substituted (kind : Option RangeKind) (count : Nat) (b : Byte) : Byte :=
  if kind = some .header ∧ 12 ≤ count ∧ count < 16 then 0 else b

/-- R51: the Check Unit takes one byte. -/
def CheckUnit.take (c : CheckUnit) (b : Byte) : CheckUnit :=
  { c with crc := crcByte c.crc (substituted c.kind c.count b), count := c.count + 1 }

/-- R49: a range request taken in IDLE. -/
def CheckUnit.start (client : CheckClient) (kind : RangeKind) (length : Nat) : CheckUnit :=
  { running := true, client := some client, kind := some kind, length := length, count := 0, crc := crcStart }

/-! ### Readers (R50, R53, R54) -/

/-- R9, R11, R41: the view of a reader. -/
def readerView : CheckClient → View
  | .commitEngine => .candidate
  | .sequencer => .stable

/-- R50: the logical offset in the segment at which the covered bytes of a segment begin. -/
def coveredStart (seg : Nat) : Nat := if seg = 0 then Config.sectorSize else 0

/-- R50: the segment and the offset at which the range of a reader begins. -/
def rangeStart : ReaderWork → Option (Nat × Nat)
  | .header _ => some (0, 0)
  | .segment seg _ => some (seg, coveredStart seg)
  | .descriptor _ => none

/-- R50: the next chunk of the range in progress is placed in the WORK slot: at most 256 bytes, translated at its first
byte. -/
def placeChunk (s : State) : State :=
  match s.reader with
  | none => s
  | some r =>
    match rangeStart r.work with
    | none => s
    | some (seg, start) =>
      place .work
        (.read (translate (readerView r.client) s.map.entries seg (start + s.check.count))
          (min Config.pageSize (s.check.length - s.check.count)))
        s

/-- R45, R59: a reader asks for the header range and places its first chunk. -/
def startHeader (client : CheckClient) (s : State) : State :=
  placeChunk
    (s.setCheck (CheckUnit.start client .header Config.headerLength)
      (some { client := client, work := .header HeaderCapture.empty }))

/-- R54: a reader reads the descriptor of a segment. -/
def placeDescriptor (client : CheckClient) (seg : Nat) (s : State) : State :=
  place .work (.read (translate (readerView client) s.map.entries 0 (0x10 + 8 * seg)) 8)
    (s.setCheck s.check (some { client := client, work := .descriptor seg }))

/-- R49, R54: with the check value taken, the range of a segment is started. -/
def startSegmentRange (client : CheckClient) (seg length : Nat) (checkValue : Word32) (s : State) : State :=
  placeChunk
    (s.setCheck (CheckUnit.start client .segment length) (some { client := client, work := .segment seg checkValue }))

/-- R53: the first segment, from a given one on, whose used length is not 0. The list begins with segment k. -/
def firstUsed (start : Nat) : Nat → List Word32 → Option Nat
  | _, [] => none
  | k, u :: t => if start ≤ k ∧ u ≠ 0 then some k else firstUsed start (k + 1) t

/-- The used lengths of a header summary that is present. -/
def usedLengths (sm : Option HeaderSummary) : List Word32 :=
  match sm with
  | some x => x.used
  | none => []

/-! ### The phases of the Start-up Sequencer -/

/-- A phase is entered; its work has not begun. -/
def enterPhase (ph : StartPhase) (s : State) : State := s.setSeq { s.seq with phase := ph, work := .notBegun }

/-- The work of a phase goes on. -/
def phaseRunning (s : State) : State := s.setSeq { s.seq with work := .running }

/-- R121, R45: the start-up check ends with a result, and the header summary is discarded. -/
def endCheck (result : CheckResult) (s : State) : State :=
  (s.setCheck s.check none).setSeq { s.seq with checkResult := result, summary := none }

/-- R121: every step of the check has succeeded; SERVING comes next. -/
def checkPassed (s : State) : State :=
  let s1 := endCheck .passed s
  s1.setSeq { s1.seq with work := .ended }

/-- R123: the check has ended failed: NO_VALID_IMAGE is raised and SERVING comes next. -/
def noValidImage (s : State) : State :=
  raiseFault .noValidImage (s.setSeq { s.seq with checkResult := .failed, work := .ended })

/-- R110, R112: a rollback at start-up is recorded and its ROLLBACK record is asked for. -/
def askStartRollback (cause : RollbackCause) (s : State) : State :=
  askAppend (.rollback s.image.targetBitmap s.image.targetSerial cause)
    (s.setImage { s.image with rollback := some (.sequencer, cause) })

/-- R122: a check fails: the first asks for a rollback with cause START_CHECK, answered failure at once when the target is
not valid. -/
def checkFailed (s : State) : State :=
  let s1 := endCheck .failed s
  if s1.seq.checkPass = .first ∧ s1.image.targetValid = true then askStartRollback .startCheck s1 else noValidImage s1

/-! ### The Commit Engine -/

/-- R57: a commit ends with a failure verdict: the session is abandoned and the engine returns to IDLE. -/
def failCommit (code : Code) (seg : BitVec 8) (s : State) : State :=
  ((abandonSession .verdict (s.setCommit { s.commit with verdict := some (code, seg) })).setCheck s.check none).setCommit
    CommitRecord.reset

/-- R66: on entering RECORD the new bitmap is formed and a COMMIT record is asked for. -/
def enterRecord (s : State) : State :=
  let bm := mapBitmap s.map.entries ^^^ readySet s.map.entries
  askAppend
    (.commit bm ((s.commit.summary.map HeaderSummary.serial).getD 0)
      ((s.commit.summary.map HeaderSummary.headerCrc).getD 0) s.seq.straps.trialLim)
    ((s.setCheck s.check none).setCommit { s.commit with stage := .record, cursor := none, newBitmap := some bm })

/-- R53, R65, R121: the Commit Engine goes on verifying from a segment: the descriptor of the next checked segment is read,
or the verification has passed. R65 and Table 4.1 give the cursor's segment in VERIFY and say nothing of its sector: DESIGN
CHOICE, the sector is 0 (log entry 30). -/
def commitVerify (start : Nat) (s : State) : State :=
  match firstUsed start 0 (usedLengths s.commit.summary) with
  | some seg =>
    placeDescriptor .commitEngine seg
      (s.setCommit { s.commit with stage := .verify, cursor := some { seg := seg, sector := 0 } })
  | none => enterRecord s

/-- R53, R121: the Start-up Sequencer goes on verifying from a segment. -/
def startVerify (start : Nat) (s : State) : State :=
  match firstUsed start 0 (usedLengths s.seq.summary) with
  | some seg => placeDescriptor .sequencer seg s
  | none => checkPassed s

/-- R62: the page of a sector that the cursor and the page number name, as an offset in the segment. -/
def copyOffset (cur : Cursor) (page : Nat) : Nat := cur.sector * Config.sectorSize + page * Config.pageSize

/-- R62: the read of a page from the active copy is placed. -/
def placeCopyRead (cur : Cursor) (page : Nat) (s : State) : State :=
  place .work (.read (translate .stable s.map.entries cur.seg (copyOffset cur page)) Config.pageSize)
    (s.setCommit { s.commit with stage := .fill, cursor := some cur, page := page, buffer := none })

/-- R61: the engine takes the entries from a segment on: a STABLE one is passed over, an OPEN one whose mask is full
becomes READY, and the first other OPEN one becomes FILLING with its first copy read placed. Past segment 254 VERIFY is
entered. The first argument counts the segments still to be taken. -/
def fillFrom : Nat → Nat → State → State
  | 0, _, s => commitVerify 0 (s.setCommit { s.commit with stage := .verify, cursor := none })
  | k + 1, seg, s =>
    if (s.entry seg).phase = .opened then
      match firstStale (s.entry seg).fresh 0 with
      | none => fillFrom k (seg + 1) (updateEntry seg MapEntry.beginFill s)
      | some sector => placeCopyRead { seg := seg, sector := sector } 0 (updateEntry seg MapEntry.beginFill s)
    else fillFrom k (seg + 1) s

/-- R61: the fill goes on at a segment. -/
def fillOn (seg : Nat) (s : State) : State := fillFrom (Config.mappedSegments - seg) seg s

/-- R60: the candidate serial is stale: the image state is not VIRGIN and the serial is not greater than the active one. -/
def staleSerial (i : ImageUnit) (serial : Word32) : Bool :=
  decide (i.state ≠ .virgin) && decide (serial.toNat ≤ i.serial.toNat)

/-- R59, R60: the Commit Engine takes the summary of the candidate header. -/
def commitHeader (sm : HeaderSummary) (s : State) : State :=
  let s1 := (s.setCheck s.check none).setCommit { s.commit with summary := some sm }
  if sm.valid = false then failCommit .headerBad 0xFF s1
  else if staleSerial s.image sm.serial then failCommit .staleSerial 0xFF s1
  else fillOn 0 (s1.setCommit { s1.commit with stage := .fill })

/-- R121: the Start-up Sequencer takes the summary of the header in view and compares its serial with the active serial. -/
def startHeaderTaken (sm : HeaderSummary) (s : State) : State :=
  let s1 := s.setSeq { s.seq with summary := some sm }
  if sm.valid = true ∧ sm.serial = s.image.serial then startVerify 0 s1 else checkFailed s1

/-- R51: the result of a range reaches its client. -/
def rangeResult (r : Reader) (crc : Word32) (s : State) : State :=
  match r.work with
  | .header cap =>
    match r.client with
    | .commitEngine => commitHeader (headerSummary cap crc) s
    | .sequencer => startHeaderTaken (headerSummary cap crc) s
  | .segment seg checkValue =>
    match r.client with
    | .commitEngine => if crc = checkValue then commitVerify (seg + 1) s else failCommit .checkMismatch (segByte seg) s
    | .sequencer => if crc = checkValue then startVerify (seg + 1) s else checkFailed s
  | .descriptor _ => s

/-- R56, R58, R154: the START-COMMIT program has completed: the session is CLOSING, the owner port COMMIT_BUSY, and the
Commit Engine enters HEADER, where any damaged entry ends the commit. -/
def startCommitEngine (p : Port) (s : State) : State :=
  let s1 :=
    ((updatePort p
          (fun q =>
            { q with
              state := if q.state = .opBusy then .commitBusy else q.state
              inFlight := none
              code := .success
              seg := 0 })
          s).setSession { s.session with state := .closing, timer := .stopped }).setCommit
      { CommitRecord.reset with stage := .header }
  match lowestDamaged 0 s1.map.entries with
  | some seg => failCommit .shadowDamaged (segByte seg) s1
  | none => startHeader .commitEngine s1

/-- R30, R33, R39: the page program of a host port completes. -/
def ownerProgramDone (p : Port) (ok : Bool) (s : State) : State :=
  match (s.port p).inFlight with
  | none => s
  | some f =>
    match f with
    | .sectorErase _ => s
    | .segmentErase _ => s
    | .program a data =>
      if s.session.state = .ending then endingComplete p true ok s
      else if ok then
        if commitWordOf a data = some .startCommit then startCommitEngine p s else giveResult p .success (outcomeSeg a) s
      else giveResult p .opFailed (outcomeSeg a) (updateEntry (segOf a) MapEntry.markDamaged s)

/-- R62: the copy read of a page has completed: the page buffer holds it and its program to the shadow is placed. -/
def copyReadDone (cur : Cursor) (bytes : List Byte) (s : State) : State :=
  place .work (.program (shadowAddr s.map.entries cur.seg (copyOffset cur s.commit.page)) bytes)
    (s.setCommit { s.commit with buffer := some (s.commit.page, bytes) })

/-- R61 to R63: the copy program of a page completes: the next page, sector or entry follows, or the commit ends with
FILL_FAIL. -/
def copyProgramDone (ok : Bool) (s : State) : State :=
  match s.commit.cursor with
  | none => s
  | some cur =>
    if ok then
      if s.commit.page < 15 then placeCopyRead cur (s.commit.page + 1) s
      else
        match firstStale (s.entry cur.seg).fresh (cur.sector + 1) with
        | some sector => placeCopyRead { cur with sector := sector } 0 s
        | none =>
          fillOn (cur.seg + 1)
            ((updateEntry cur.seg MapEntry.endFill s).setCommit { s.commit with page := 0, buffer := none })
    else failCommit .fillFail (segByte cur.seg) (s.setCommit { s.commit with buffer := none })

end Sys2Proof.Machine
end

