-- ==== Sys2Proof/Machine/ImageOps.lean ====
section
/-!
DEFINITION. The Image State unit (chapter 6) and the switch (section 1.5): ACCEPT and REVERT, a switch taking effect with
what the Commit Engine and the Image State unit do in the same step, and the answers of the unit's records.
-/

namespace Sys2Proof.Machine

/-- R102: an intercepted ACCEPT. -/
def decideAccept (p : Port) (s : State) : State :=
  if s.log.lock ≠ .ok then giveResult p .updatesLocked 0xFF s
  else if s.image.state ≠ .trial then giveResult p .notOnTrial 0xFF s
  else if s.image.acceptance ≠ none then giveResult p .engineBusy 0xFF s
  else
    askAppend (.confirm s.image.serial)
      (s.setImage { s.image with state := .confirming, acceptance := some (p, s.image.serial) })

/-- R104: an intercepted REVERT. -/
def decideRevert (p : Port) (s : State) : State :=
  if s.log.lock ≠ .ok then giveResult p .updatesLocked 0xFF s
  else if s.session.lock ≠ .free then giveResult p .engineBusy 0xFF s
  else if s.image.targetValid = false then giveResult p .noTarget 0xFF s
  else if s.image.state = .confirming ∨ s.image.acceptance ≠ none then giveResult p .engineBusy 0xFF s
  else
    askAppend (.rollback s.image.targetBitmap s.image.targetSerial .requested)
      ((s.setImage { s.image with rollback := some (.port p, .requested) }).setSession
        { s.session with lock := .rollback })

/-! ### The switch (R15 to R17, R69, R70, R106) -/

/-- R17, R16: every held transfer is released: its first chunk is translated and pins the new epoch. -/
def releaseHeld (s : State) : State := firstChunk .hp1 (firstChunk .hp0 s)

/-- R69: the Image State unit applies a commit. `before` is the map before the switch. -/
def commitImage (before : Bitmap) (serial : Word32) (limit : Fin 4) (i : ImageUnit) : ImageUnit :=
  { i with
    targetValid := true
    targetBitmap := before
    targetSerial := i.serial
    serial := serial
    state := if limit = 0 then .confirmed else .trial
    count := 0
    limit := limit
    imageOk := true }

/-- R69, R70, R34: a commit switch has taken effect: the commit is applied, the session ends, the owner port receives
COMMITTED and the Commit Engine returns to IDLE. -/
def commitApplied (before : Bitmap) (s : State) : State :=
  let s1 :=
    ((s.setImage
          (commitImage before ((s.commit.summary.map HeaderSummary.serial).getD s.image.serial) s.seq.straps.trialLim
            s.image)).setSession Session.reset).setCommit CommitRecord.reset
  match s.session.owner with
  | some p => updatePort p (fun q => q.result .committed 0xFF) s1
  | none => s1

/-- R106, R110: the Image State unit applies a rollback; IMAGE_OK goes high in the running part only. -/
def rollbackImage (running : Bool) (i : ImageUnit) : ImageUnit :=
  { i with
    serial := i.targetSerial
    state := .confirmed
    count := 0
    targetValid := false
    imageOk := i.imageOk || running
    rollback := none }

/-- R105, R106: a runtime rollback ends and the lock returns from ROLLBACK to FREE. -/
def freeRollback (s : State) : State :=
  if s.session.lock = .rollback then s.setSession { s.session with lock := .free } else s

/-- R106, R110, R122: a rollback switch has taken effect: the rollback is applied, and its requester goes on: a port
receives ROLLED_BACK, the trial step ends, or the second start-up check begins. -/
def rollbackApplied (s : State) : State :=
  let s1 := s.setImage (rollbackImage s.serving s.image)
  match s.image.rollback with
  | none => s1
  | some (.port p, _) => giveResult p .rolledBack 0xFF (freeRollback s1)
  | some (.sequencer, .requested) => s1
  | some (.sequencer, .trialExpired) => enterPhase .check s1
  | some (.sequencer, .startCheck) => startHeader .sequencer (s1.setSeq { s1.seq with checkPass := .second })

/-- R17, R161: a pending switch takes effect. -/
def switchEffect (s : State) : State :=
  match s.map.switch with
  | none => s
  | some sw =>
    let s1 : State :=
      { s with
        map := { s.map with entries := flipEntries sw s.map.entries, epoch := s.map.epoch + 1, switch := none }
        faults := s.faults.afterSwitch }
    releaseHeld
      (match sw.requester with
       | .commitEngine => commitApplied (mapBitmap s.map.entries) s1
       | .imageState => rollbackApplied s1)

/-- R15: a switch request: the pending-switch record is created with the current epoch, and the switch takes effect at once
when no transfer is pinned. -/
def requestSwitch (r : SwitchRequester) (flip : Bitmap) (s : State) : State :=
  let s1 : State :=
    { s with map := { s.map with switch := some { requester := r, flip := flip, endsEpoch := s.map.epoch } } }
  if s.map.pinned = 0 then switchEffect s1 else s1

/-! ### The answers of records (R24, R25, R67, R103, R105, R109 to R112) -/

/-- R24, R25, R39: the OPEN append is answered. -/
def openAnswered (ok : Bool) (s : State) : State :=
  let s1 :=
    if ok then (s.setSession { s.session with openLogged := true }).setImage { s.image with targetValid := false } else s
  match s.session.owner with
  | none => s1
  | some p =>
    if s.session.state = .ending then abandonSession .owner s1
    else
      match (s.port p).inFlight with
      | none => s1
      | some f =>
        if ok then openSegment p f s1 else giveResult p .logFail (outcomeSeg f.addr) (s1.setSession Session.reset)

/-- R67: the COMMIT append is answered: SWITCH with a commit switch request, or the verdict LOG_FAIL. -/
def commitAnswered (ok : Bool) (s : State) : State :=
  if ok then
    requestSwitch .commitEngine (readySet s.map.entries) (s.setCommit { s.commit with stage := .switch })
  else failCommit .logFail 0xFF s

/-- R103: the CONFIRM append is answered. -/
def confirmAnswered (ok : Bool) (s : State) : State :=
  match s.image.acceptance with
  | none => s
  | some (p, serial) =>
    if ok then
      if s.image.state = .confirming ∧ serial = s.image.serial then
        giveResult p .confirmed 0xFF (s.setImage { s.image with state := .confirmed, acceptance := none })
      else giveResult p .notOnTrial 0xFF (s.setImage { s.image with acceptance := none })
    else
      giveResult p .logFail 0xFF
        (s.setImage
          { s.image with
            state := if s.image.state = .confirming then .trial else s.image.state
            acceptance := none })

/-- R109: the TRIAL append is answered and the trial step ends. -/
def trialAnswered (count : Fin 4) (ok : Bool) (s : State) : State :=
  enterPhase .check (if ok then s.setImage { s.image with count := count } else s)

/-- R105, R110, R112, R122: the ROLLBACK append is answered. -/
def rollbackAnswered (ok : Bool) (s : State) : State :=
  match s.image.rollback with
  | none => s
  | some (who, cause) =>
    if ok then requestSwitch .imageState (rollbackFlip s.map.entries s.image.targetBitmap) s
    else
      let s1 := s.setImage { s.image with rollback := none }
      match who with
      | .port p => giveResult p .logFail 0xFF (freeRollback s1)
      | .sequencer =>
        match cause with
        | .trialExpired => enterPhase .check (raiseFault .trialExpired s1)
        | .startCheck => noValidImage s1
        | .requested => s1

/-- R82: an append is answered to its requester. -/
def answerAppend (b : RecordBody) (ok : Bool) (s : State) : State :=
  match b with
  | .base _ => s
  | .opened => openAnswered ok s
  | .commit _ _ _ _ => commitAnswered ok s
  | .trial count => trialAnswered count ok s
  | .confirm _ => confirmAnswered ok s
  | .rollback _ _ _ => rollbackAnswered ok s

/-! ### The trial step (R109 to R111) -/

/-- R109 to R111, R120: the trial step. A count above the limit is taken as one at the limit (log entry 15). -/
def trialStep (s : State) : State :=
  if s.image.state ≠ .trial then enterPhase .check s
  else if s.image.count < s.image.limit then askAppend (.trial (s.image.count + 1)) (phaseRunning s)
  else if s.image.targetValid then askStartRollback .trialExpired (phaseRunning s)
  else enterPhase .check (raiseFault .trialExpired s)

end Sys2Proof.Machine
end

