-- ==== Sys2Proof/Machine/CommitEvents.lean ====
section
/-!
DEFINITION. The meanings of the events of the Check Unit (chapter 3), of the Commit Engine (chapter 4) and of a pending
switch (chapter 1).
-/

namespace Sys2Proof.Machine

/-- R45: a chunk of the header range is captured by the reader before it enters the Check Unit. -/
def captureChunk (count : Nat) (bytes : List Byte) (r : Reader) : Reader :=
  match r.work with
  | .header cap => { r with work := .header (captureWords cap (count / 4) bytes) }
  | .descriptor _ => r
  | .segment _ _ => r

/-- R50, R51: the bytes of a chunk are passed to the Check Unit in order; the next chunk is placed while the range is not
complete. -/
def chunkTaken (r : Reader) (bytes : List Byte) (s : State) : State :=
  let s1 := s.setCheck (bytes.foldl CheckUnit.take s.check) (some (captureChunk s.check.count bytes r))
  if s1.check.count < s1.check.length then placeChunk s1 else s1

/-- Whether a reader is in a range whose byte count is below its length. -/
def rangeOpen (s : State) : Option Reader :=
  match s.reader with
  | some r =>
    match r.work with
    | .descriptor _ => none
    | .header _ => if s.check.running = true ∧ s.check.count < s.check.length then some r else none
    | .segment _ _ => if s.check.running = true ∧ s.check.count < s.check.length then some r else none
  | none => none

/-- CHECK_CHUNK_READ_COMPLETE (R50): a chunk of the range in progress has been read through the WORK slot. -/
def execCheckChunkReadComplete (nextFirst : Bool) (s : State) : Host.Outcome State Fault Refusal :=
  match rangeOpen s, s.flash.readInFlight .work with
  | some r, some (a, n) => .next (finishReadThen nextFirst .work a n (fun x => chunkTaken r (readFlash s a n) x) s)
  | _, _ => .next s

/-- CHECK_RANGE_RESULT (R51): the byte count has reached the length: the result is handed to the client and the Check Unit
returns to IDLE. R51 gives its byte count and its running CRC there, Table 3.4 has the client absent; that the kind is absent
is DEDUCED from Table 3.4, and that the length is 0 again is a DESIGN CHOICE (log entry 6). -/
def execCheckRangeResult (s : State) : Host.Outcome State Fault Refusal :=
  match s.reader with
  | some r =>
    if s.check.running = true ∧ s.check.count = s.check.length then
      .next (rangeResult r (crcFinish s.check.crc) (s.setCheck CheckUnit.reset s.reader))
    else .next s
  | none => .next s

/-- R54: the used length of a segment in the summary of a client. -/
def usedLength (client : CheckClient) (seg : Nat) (s : State) : Nat :=
  let sm := match client with
    | .commitEngine => s.commit.summary
    | .sequencer => s.seq.summary
  ((usedLengths sm).getD seg 0).toNat

/-- DESCRIPTOR_READ_COMPLETE (R54): the check value of the segment is taken and its range is started. -/
def execDescriptorReadComplete (nextFirst : Bool) (s : State) : Host.Outcome State Fault Refusal :=
  match s.reader, s.flash.readInFlight .work with
  | some r, some (a, n) =>
    match r.work with
    | .descriptor seg =>
      .next
        (finishReadThen nextFirst .work a n
          (fun x => startSegmentRange r.client seg (usedLength r.client seg s) (le32At (readFlash s a n) 4) x) s)
    | .header _ => .next s
    | .segment _ _ => .next s
  | _, _ => .next s

/-- COPY_READ_COMPLETE (R62): the page read from the active copy is in the page buffer and its program is placed. -/
def execCopyReadComplete (s : State) : Host.Outcome State Fault Refusal :=
  match s.commit.cursor, s.flash.readInFlight .work with
  | some cur, some (a, n) =>
    if s.commit.stage = .fill ∧ s.commit.buffer = none then
      .next (copyReadDone cur (readFlash s a n) (finishRead .work a n s))
    else .next s
  | _, _ => .next s

/-- COPY_PROGRAM_COMPLETE (R62, R63): the program of a copied page completes. -/
def execCopyProgramComplete (r : FlashReport) (s : State) : Host.Outcome State Fault Refusal :=
  match s.flash.programInFlight with
  | some (c, a, data) =>
    if c = .work ∧ s.commit.stage = .fill then .next (copyProgramDone (reportOk r) (finishProgram c a data (reportLeft r) s)) else .next s
  | none => .next s

/-- SWITCH_TAKES_EFFECT (R17): with no transfer pinned the pending switch takes effect. -/
def execSwitchTakesEffect (s : State) : Host.Outcome State Fault Refusal :=
  if s.map.pinned = 0 then .next (switchEffect s) else .next s

end Sys2Proof.Machine
end

