-- ==== Sys2Proof/Machine/LogFormat.lean ====
section
/-!
DEFINITION. The formats of the map log (R78, R79, R170, Tables 12.2 to 12.4) and the effect of a record on the log
summary (R81).
-/

namespace Sys2Proof.Machine

/-! ### Codes of Table 12.4 -/

/-- Table 12.4: the image state byte of a BASE. -/
def loggedStateByte : LoggedState → Byte
  | .virgin => 0x00
  | .confirmed => 0x01
  | .trial => 0x02

/-- Table 12.4: the image state of a byte; a byte outside the table is a free value (log entry 11). -/
def loggedStateOf (b : Byte) : LoggedState :=
  if b = 0x00 then .virgin
  else if b = 0x01 then .confirmed
  else if b = 0x02 then .trial
  else if Config.undecodedState b = 0 then .virgin
  else if Config.undecodedState b = 1 then .confirmed
  else .trial

/-- Table 12.4: a trial count or limit as a byte. -/
def trialByte (n : Fin 4) : Byte := BitVec.ofNat 8 n.val

/-- Table 12.4: the trial count or limit of a byte; a byte above 3 is a free value (log entry 11). -/
def trialOf (b : Byte) : Fin 4 := if h : b.toNat < 4 then ⟨b.toNat, h⟩ else Config.undecodedTrial b

/-- Table 12.4: the target flag as a byte. -/
def flagByte (v : Bool) : Byte := if v then 0x01 else 0x00

/-- Table 12.4: the target flag of a byte; a byte other than 0x00 and 0x01 is a free value (log entry 11). -/
def flagOf (b : Byte) : Bool :=
  if b = 0x00 then false else if b = 0x01 then true else Config.undecodedFlag b

/-- Table 12.4: the cause of a ROLLBACK as a byte. -/
def causeByte : RollbackCause → Byte
  | .requested => 0x01
  | .trialExpired => 0x02
  | .startCheck => 0x03

/-- Table 12.4: the cause of a byte. R170 gives it no effect, so that any other byte may be read as REQUESTED. -/
def causeOf (b : Byte) : RollbackCause :=
  if b = 0x02 then .trialExpired else if b = 0x03 then .startCheck else .requested

/-- Table 12.3: the kind byte. -/
def kindByte : RecordBody → Byte
  | .base _ => 0x01
  | .opened => 0x02
  | .commit _ _ _ _ => 0x03
  | .trial _ => 0x04
  | .confirm _ => 0x05
  | .rollback _ _ _ => 0x06

/-- Table 12.4: the bitmaps in the body of a record. -/
def recordBitmaps : RecordBody → List Bitmap
  | .base sm => [sm.bitmap, sm.targetBitmap]
  | .opened => []
  | .commit bm _ _ _ => [bm]
  | .trial _ => []
  | .confirm _ => []
  | .rollback bm _ _ => [bm]

/-! ### Writing (R170) -/

/-- Bytes followed by 0x00 up to a length. -/
def zeroFilled (n : Nat) (bs : List Byte) : List Byte := bs ++ List.replicate (n - bs.length) 0

/-- Table 12.4: the named fields of a body. -/
def bodyBytes : RecordBody → List Byte
  | .base s =>
    bitmapBytes s.bitmap ++ le32Bytes s.serial ++
      [loggedStateByte s.state, trialByte s.count, trialByte s.limit, flagByte s.targetValid] ++
      bitmapBytes s.targetBitmap ++ le32Bytes s.targetSerial
  | .opened => []
  | .commit bm serial crc limit => bitmapBytes bm ++ le32Bytes serial ++ le32Bytes crc ++ [trialByte limit]
  | .trial count => [trialByte count]
  | .confirm serial => le32Bytes serial
  | .rollback bm serial cause => bitmapBytes bm ++ le32Bytes serial ++ [causeByte cause]

/-- R79: bytes 0 to 123 of a record. -/
def recordHead (seq : Word32) (body : RecordBody) : List Byte :=
  le32Bytes seq ++ [kindByte body] ++ zeroFilled 119 (bodyBytes body)

/-- R79: the 128 bytes of a record. -/
def recordBytes (seq : Word32) (body : RecordBody) : List Byte :=
  recordHead seq body ++ le32Bytes (crc32 (recordHead seq body))

/-- R78: the first eight bytes of an area header. -/
def areaHead (generation : Word32) : List Byte := le32Bytes Config.areaMagic ++ le32Bytes generation

/-- R78: the 128 bytes of an area header. -/
def areaHeaderBytes (generation : Word32) : List Byte :=
  zeroFilled Config.positionSize (areaHead generation ++ le32Bytes (crc32 (areaHead generation)))

/-! ### Reading -/

/-- R79: every byte of a position reads 0xFF. -/
def erasedBytes (bs : List Byte) : Bool := bs.all (fun b => decide (b = Config.erasedByte))

/-- R78: the generation of a valid area header. -/
def areaGeneration (bs : List Byte) : Option Word32 :=
  if le32At bs 0 = Config.areaMagic ∧ le32At bs 8 = crc32 (bs.take 8) then some (le32At bs 4) else none

/-- Table 12.4: the summary in a BASE body. -/
def baseSummary (bs : List Byte) : LogSummary :=
  { bitmap := bitmapAt bs 0x05
    serial := le32At bs 0x25
    state := loggedStateOf (byteAt bs 0x29)
    count := trialOf (byteAt bs 0x2A)
    limit := trialOf (byteAt bs 0x2B)
    targetValid := flagOf (byteAt bs 0x2C)
    targetBitmap := bitmapAt bs 0x2D
    targetSerial := le32At bs 0x4D }

/-- Tables 12.3, 12.4: the body of a record by its kind byte. -/
def recordBody (bs : List Byte) : Option RecordBody :=
  let kind := byteAt bs 4
  if kind = 0x01 then some (.base (baseSummary bs))
  else if kind = 0x02 then some .opened
  else if kind = 0x03 then
    some (.commit (bitmapAt bs 0x05) (le32At bs 0x25) (le32At bs 0x29) (trialOf (byteAt bs 0x2D)))
  else if kind = 0x04 then some (.trial (trialOf (byteAt bs 0x05)))
  else if kind = 0x05 then some (.confirm (le32At bs 0x05))
  else if kind = 0x06 then
    some (.rollback (bitmapAt bs 0x05) (le32At bs 0x25) (causeOf (byteAt bs 0x29)))
  else none

/-- R79: the sequence number and body of a valid record: its stored CRC equals the CRC-32 of bytes 0 to 123, and its kind
is one of the six. -/
def validRecord (bs : List Byte) : Option (Word32 × RecordBody) :=
  if le32At bs 124 = crc32 (bs.take 124) then (recordBody bs).map (fun b => (le32At bs 0, b)) else none

/-- R79: a position that is neither erased nor holding a valid record is torn. -/
def tornRecord (bs : List Byte) : Bool := !erasedBytes bs && (validRecord bs).isNone

/-- R95: a header that is neither erased nor valid is torn. -/
def tornHeader (bs : List Byte) : Bool := !erasedBytes bs && (areaGeneration bs).isNone

/-- The sequence number and summary of a valid BASE record. -/
def validBase (bs : List Byte) : Option (Word32 × LogSummary) :=
  match validRecord bs with
  | some (seq, .base s) => some (seq, s)
  | _ => none

/-! ### The effect of a record (R81) -/

/-- R81: the effect of a record on the log summary. -/
def applyRecord (s : LogSummary) : RecordBody → LogSummary
  | .base new => new
  | .opened => { s with targetValid := false }
  | .commit bm serial _ limit =>
    { bitmap := bm, serial := serial, state := if limit = 0 then .confirmed else .trial, count := 0, limit := limit,
      targetValid := true, targetBitmap := s.bitmap, targetSerial := s.serial }
  | .trial count => { s with count := count }
  | .confirm serial => if serial = s.serial then { s with state := .confirmed } else s
  | .rollback bm serial _ =>
    { s with bitmap := bm, serial := serial, state := .confirmed, count := 0, targetValid := false }

/-! ### The choice of area (R91, R95) and the records (R92, R93) -/

/-- R91: a usable area: its generation, and the sequence number and summary of its BASE. -/
def usableArea (header base : List Byte) : Option (Word32 × Word32 × LogSummary) :=
  match areaGeneration header, validBase base with
  | some g, some (seq, s) => some (g, seq, s)
  | _, _ => none

/-- R91 with a current area chosen: replay goes on at position 2 from the BASE. -/
def startWalk (area : Area) (u : Word32 × Word32 × LogSummary) : ReplayWalk :=
  { area := area, generation := u.1, position := 2, last := u.2.1, summary := u.2.2, miss := none }

/-- R91: area 1 is chosen over area 0 when its generation is greater, or equal with a greater BASE sequence number. -/
def prefersOne (u0 u1 : Word32 × Word32 × LogSummary) : Bool :=
  decide (u0.1.toNat < u1.1.toNat) || (decide (u0.1 = u1.1) && decide (u0.2.1.toNat < u1.2.1.toNat))

/-- R95: the flash is blank, from the header and position 1 of area 0 and of area 1. -/
def blankFlash (h0 b0 h1 b1 : List Byte) : Bool :=
  erasedBytes h1 && erasedBytes b1 &&
    (erasedBytes h0 || decide (areaGeneration h0 = some 1) || tornHeader h0) && (erasedBytes b0 || tornRecord b0)

/-- R92, R93: replay takes the 128 bytes of the position it stands at. A valid record with the expected sequence number is
applied, whatever positions were passed over before it. Anything else leaves the log ending at the first such position
unless a later one holds the expected record, and the append position one above the highest that is not erased. -/
def walkPosition (w : ReplayWalk) (bs : List Byte) : ReplayWalk :=
  let missed : ReplayWalk :=
    { w with
      position := w.position + 1
      miss := some (if erasedBytes bs then w.miss.getD w.position else w.position + 1) }
  match validRecord bs with
  | some (seq, body) =>
    if seq = w.last + 1 then
      { w with position := w.position + 1, last := seq, summary := applyRecord w.summary body, miss := none }
    else missed
  | none => missed

end Sys2Proof.Machine
end

