-- ==== Sys2Proof/Machine/LogOps.lean ====
section
/-!
DEFINITION. The Log Unit at work (chapter 5): appends with their read-back and retry, compaction, initialisation and
replay.
-/

namespace Sys2Proof.Machine

/-- R97, R160: the Log Unit becomes FAULTED and LOG_FAULT is raised. -/
def logFail (s : State) : State :=
  if s.log.lock = .ok then raiseFault .logFault (s.setLog { s.log with lock := .faulted }) else s

/-- R96: the Log Unit becomes CORRUPT and LOG_CORRUPT is raised. -/
def logCorrupt (s : State) : State :=
  if s.log.lock = .ok then raiseFault .logCorrupt (s.setLog { s.log with lock := .corrupt }) else s

/-- R82: the request at the head of the queue is removed, and no append is in progress. -/
def popAppend (s : State) : State := s.setLog { s.log with queue := s.log.queue.tail, append := none }

/-- R83: an append is answered failure without a fault being raised again. -/
def refuseAppend (b : RecordBody) (s : State) : State := answerAppend b false (popAppend s)

/-- R86, R87, R89: an append fails: the Log Unit is FAULTED, and the requester is answered failure. -/
def failAppend (b : RecordBody) (s : State) : State := answerAppend b false (popAppend (logFail s))

/-- R84: an append succeeds: the record is applied to the summary, the next sequence number rises by one, and the requester
is answered success. -/
def succeedAppend (b : RecordBody) (s : State) : State :=
  let s1 := popAppend s
  answerAppend b true
    (s1.setLog { s1.log with summary := applyRecord s1.log.summary b, nextSeq := s1.log.nextSeq + 1 })

/-- The current area; area 0 stands for an absent one, which no append finds (R80). -/
def LogUnit.current (l : LogUnit) : Area := l.area.getD .zero

/-- R84, R86: the record of the request is programmed at the append position of the current area. -/
def writeRecord (stage : AppendStage) (b : RecordBody) (s : State) : State :=
  place .log (.program (positionAddr s.log.current s.log.position) (recordBytes s.log.nextSeq b))
    (s.setLog
      { s.log with
        append := some { stage := stage, position := s.log.position, seq := s.log.nextSeq, retry := false } })

/-- R87, R88: a full area is compacted, unless the sequence numbers do not suffice: then the request is refused. Table 5.2
does not say what the position and the sequence number of the append in progress are in COMPACTING: DESIGN CHOICE, the append
position (512) and the next sequence number N, which is the BASE's (log entry 31). -/
def compactOrRefuse (retry : Bool) (b : RecordBody) (s : State) : State :=
  if 0xFFFFFFFE ≤ s.log.nextSeq.toNat then failAppend b s
  else
    place .log (.blockErase (areaBase s.log.current.other))
      (s.setLog
        { s.log with
          append :=
            some { stage := .compacting .erase, position := s.log.position, seq := s.log.nextSeq, retry := retry } })

/-- R83, R84, R87: the request at the head of the queue is started. -/
def startAppend (b : RecordBody) (s : State) : State :=
  if s.log.lock ≠ .ok then refuseAppend b s
  else if s.log.position = Config.positions then compactOrRefuse false b s
  else if s.log.nextSeq = 0xFFFFFFFF then failAppend b s
  else writeRecord .write b s

/-- R84 to R86: the program of a record ends. -/
def recordDone (ok : Bool) (s : State) : State :=
  match s.log.append, s.log.queue with
  | some w, b :: _ =>
    let s1 := s.setLog { s.log with position := s.log.position + 1 }
    match w.stage with
    | .write =>
      if ok then succeedAppend b s1
      else
        place .log (.read (positionAddr s.log.current w.position) Config.positionSize)
          (s1.setLog { s1.log with append := some { w with stage := .readBack } })
    | .retryWrite =>
      if ok then succeedAppend b s1
      else
        place .log (.read (positionAddr s.log.current w.position) Config.positionSize)
          (s1.setLog { s1.log with append := some { w with stage := .retryReadBack } })
    | .readBack => s
    | .retryReadBack => s
    | .compacting _ => s
  | _, _ => s

/-- R85, R86: whether the bytes read back hold a valid record with the sequence number of the append. -/
def recordStands (seq : Word32) (bs : List Byte) : Bool :=
  match validRecord bs with
  | some (q, _) => decide (q = seq)
  | none => false

/-- R85, R86: the read-back of a position ends. -/
def readBackDone (bs : List Byte) (s : State) : State :=
  match s.log.append, s.log.queue with
  | some w, b :: _ =>
    match w.stage with
    | .readBack =>
      if recordStands w.seq bs then succeedAppend b s
      else if s.log.position = Config.positions then compactOrRefuse true b s
      else writeRecord .retryWrite b s
    | .retryReadBack => if recordStands w.seq bs then succeedAppend b s else failAppend b s
    | .write => s
    | .retryWrite => s
    | .compacting _ => s
  | _, _ => s

/-- R88: the generation a compaction gives the area it writes. -/
def LogUnit.newGeneration (l : LogUnit) : Word32 := l.generation.getD 0 + 1

/-- R88, R89: a step of a compaction ends. -/
def compactionDone (w : Append) (b : RecordBody) (step : AreaStep) (ok : Bool) (s : State) : State :=
  let other := s.log.current.other
  if ok then
    match step with
    | .erase =>
      place .log (.program (areaBase other) (areaHeaderBytes s.log.newGeneration))
        (s.setLog { s.log with append := some { w with stage := .compacting .header } })
    | .header =>
      place .log (.program (positionAddr other 1) (recordBytes s.log.nextSeq (.base s.log.summary)))
        (s.setLog { s.log with append := some { w with stage := .compacting .base } })
    | .base =>
      writeRecord (if w.retry then .retryWrite else .write) b
        (s.setLog
          { s.log with
            area := some other
            generation := some s.log.newGeneration
            position := 2
            nextSeq := s.log.nextSeq + 1 })
  else failAppend b s

/-- R94 to R96: the recovered or initial summary is handed to the Segment Map and the Image State unit. -/
def handOver (sm : LogSummary) (s : State) : State :=
  (s.setEntries (banksFrom sm.bitmap s.map.entries)).setImage
    { s.image with
      serial := sm.serial
      state := match sm.state with
        | .virgin => .virgin
        | .confirmed => .confirmed
        | .trial => .trial
      count := sm.count
      limit := sm.limit
      targetValid := sm.targetValid
      targetBitmap := sm.targetBitmap
      targetSerial := sm.targetSerial }

/-- R95: a step of the initialisation of area 0 ends. -/
def initDone (step : AreaStep) (ok : Bool) (s : State) : State :=
  if ok then
    match step with
    | .erase => place .log (.program (areaBase .zero) (areaHeaderBytes 1)) (s.setLog { s.log with initStep := some .header })
    | .header =>
      place .log (.program (positionAddr .zero 1) (recordBytes 1 (.base LogSummary.initial)))
        (s.setLog { s.log with initStep := some .base })
    | .base =>
      enterPhase .trialStep
        (s.setLog
          { s.log with
            area := some .zero
            generation := some 1
            position := 2
            nextSeq := 2
            summary := LogSummary.initial
            initStep := none })
  else enterPhase .trialStep (handOver LogSummary.initial (logFail (s.setLog { s.log with initStep := none })))

/-- R88, R95: an erase or program of a map area ends: that of the compaction or of the initialisation in progress. -/
def areaStepDone (step : AreaStep) (ok : Bool) (s : State) : State :=
  match s.log.append, s.log.queue with
  | some w, b :: _ => if w.stage = .compacting step then compactionDone w b step ok s else s
  | _, _ => if s.log.initStep = some step then initDone step ok s else s

/-- Whether the Log Unit is at a step of a compaction or of an initialisation. -/
def LogUnit.atAreaStep (l : LogUnit) (step : AreaStep) : Bool :=
  match l.append with
  | some w => decide (w.stage = .compacting step) && !l.queue.isEmpty
  | none => decide (l.initStep = some step)

/-- Whether the Log Unit waits for the program of a record. -/
def LogUnit.atRecord (l : LogUnit) : Bool :=
  match l.append with
  | some w => (decide (w.stage = .write) || decide (w.stage = .retryWrite)) && !l.queue.isEmpty
  | none => false

/-- Whether the Log Unit waits for a read-back. -/
def LogUnit.atReadBack (l : LogUnit) : Bool :=
  match l.append with
  | some w => (decide (w.stage = .readBack) || decide (w.stage = .retryReadBack)) && !l.queue.isEmpty
  | none => false

/-- A program of the Log Unit ends: that of a record, an area header or a BASE. -/
def logProgramDone (ok : Bool) (s : State) : State :=
  if s.log.atRecord then recordDone ok s
  else if s.log.atAreaStep .header then areaStepDone .header ok s
  else if s.log.atAreaStep .base then areaStepDone .base ok s
  else s

/-! ### Replay (R91 to R96) -/

/-- The k-th of the four positions of R91: positions 0 and 1 of area 0, then of area 1. -/
def headAddr (k : Nat) : Nat := positionAddr (if k < 2 then .zero else .one) (k % 2)

/-- A read of a position by replay (log entry 12). -/
def replayRead (addr : Nat) (r : Replay) (s : State) : State :=
  place .log (.read addr Config.positionSize) (s.setLog { s.log with replay := some r })

/-- R118: the SCAN result is recorded, and the next phase entered. -/
def endScan (result : ScanResult) (ph : StartPhase) (s : State) : State :=
  let s1 := s.setLog { s.log with replay := none }
  enterPhase ph (s1.setSeq { s1.seq with scanResult := some result })

/-- R93, R94: the log has ended: the append position and the next sequence number are set and the summary handed over. No
append is in progress then (R80). -/
def endReplay (w : ReplayWalk) (s : State) : State :=
  endScan .replayed .trialStep
    (handOver w.summary
      (s.setLog
        { s.log with
          area := some w.area
          generation := some w.generation
          position := w.miss.getD Config.positions
          nextSeq := w.last + 1
          summary := w.summary
          append := none }))

/-- R91, R95, R96: with the four positions read, the current area is chosen, or the flash is blank or the log corrupt. -/
def chooseArea (h0 b0 h1 b1 : List Byte) (s : State) : State :=
  match usableArea h0 b0, usableArea h1 b1 with
  | some u0, some u1 =>
    let w := if prefersOne u0 u1 then startWalk .one u1 else startWalk .zero u0
    replayRead (positionAddr w.area w.position) (.walk w) s
  | some u0, none => replayRead (positionAddr .zero 2) (.walk (startWalk .zero u0)) s
  | none, some u1 => replayRead (positionAddr .one 2) (.walk (startWalk .one u1)) s
  | none, none =>
    if blankFlash h0 b0 h1 b1 then endScan .blank .init (handOver LogSummary.initial s)
    else endScan .corrupt .trialStep (logCorrupt (handOver LogSummary.initial s))

/-- R91 to R96: replay takes the bytes of a position. -/
def replayTake (bs : List Byte) (s : State) : State :=
  match s.log.replay with
  | none => s
  | some (.heads []) => replayRead (headAddr 1) (.heads [bs]) s
  | some (.heads [h0]) => replayRead (headAddr 2) (.heads [h0, bs]) s
  | some (.heads [h0, b0]) => replayRead (headAddr 3) (.heads [h0, b0, bs]) s
  | some (.heads (h0 :: b0 :: h1 :: _)) => chooseArea h0 b0 h1 bs s
  | some (.walk w) =>
    let w1 := walkPosition w bs
    if w1.position < Config.positions then replayRead (positionAddr w1.area w1.position) (.walk w1) s
    else endReplay w1 s

end Sys2Proof.Machine
end

