-- ==== Sys2Proof/Machine/Requests.lean ====
section
/-!
DEFINITION. How a host port takes a request (R124, R125, R146 to R159): held, refused, ignored, answered, or passed on to
the Session Controller, with the interception of the control words.
-/

namespace Sys2Proof.Machine

/-! ### Erases and programs passed on (R29 to R33, R101, R149, R152) -/

/-- R29 to R33: a program by the owner in ACTIVE, once the idle timer has been loaded (R35). -/
def ownerProgramRequest (p : Port) (a : LogicalAddr) (data : List Byte) (s : State) : State :=
  if commitWordOf a data = some .abandon then abandonSession .owner s else ownerProgram p a data (loadTimer s)

/-- R22, R101: a program from a port that owns no session. -/
def otherProgram (p : Port) (a : LogicalAddr) (data : List Byte) (s : State) : State :=
  if acceptanceWordOf a data = some .accept then decideAccept p s
  else if acceptanceWordOf a data = some .revert then decideRevert p s
  else
    match s.session.lock with
    | .session => giveResult p .sessionOther (outcomeSeg a) s
    | .free => giveResult p .noSession (outcomeSeg a) s
    | .rollback => giveResult p .noSession (outcomeSeg a) s

/-- R152: the port records the request in flight and enters OP_BUSY. -/
def passOn (p : Port) (f : InFlight) (s : State) : State :=
  updatePort p (fun q => { q with state := .opBusy, inFlight := some f }) s

/-- R149: the refusal of the port-level checks, if one fails: OUT_OF_RANGE, PAGE_CROSS, NOT_UPDATE_PORT, in this order.
An erase has no data bytes and cannot cross a page. -/
def portCheck (p : Port) (straps : Straps) (a : LogicalAddr) (dataBytes : Nat) : Option (Code × BitVec 8) :=
  if Config.mappedSegments ≤ segOf a then some (.outOfRange, 0xFF)
  else if Config.pageSize < a.toNat % Config.pageSize + dataBytes then some (.pageCross, outcomeSeg a)
  else if updEnabled straps.updSel p = false then some (.notUpdatePort, outcomeSeg a)
  else none

/-- R148, R149, R152: an erase or program that the port decodes in READY: WEL is cleared; without WEL it is ignored; a
check that fails refuses it; else it is passed on and decided. -/
def takeWrite (p : Port) (a : LogicalAddr) (dataBytes : Nat) (f : InFlight) (decideIt : State → State) (s : State) :
    State :=
  let s1 := updatePort p (fun q => { q with wel := false }) s
  if (s.port p).wel = false then s1
  else
    match portCheck p s.seq.straps a dataBytes with
    | some r => updatePort p (fun q => q.outcome r.1 r.2) s1
    | none => decideIt (passOn p f s1)

/-- R22, R29: a program that reaches the Session Controller. -/
def sessionProgram (p : Port) (a : LogicalAddr) (data : List Byte) (s : State) : State :=
  if ownsActive s p then ownerProgramRequest p a data s else otherProgram p a data s

/-- R148, R149: a PAGE PROGRAM in READY; without a data byte it is ignored and clears WEL. -/
def takeProgram (p : Port) (a : LogicalAddr) (data : List Byte) (s : State) : State :=
  if data.isEmpty then updatePort p (fun q => { q with wel := false }) s
  else takeWrite p a data.length (.program a data) (sessionProgram p a data) s

/-! ### Reads, latches and resets -/

/-- R150: an ARRAY READ taken in READY: the port enters TRANSFER and the first chunk is translated or held. -/
def takeArrayRead (p : Port) (a : LogicalAddr) (clocks : Nat) (s : State) : State :=
  let rule := if s.session.owner = some p then ViewRule.owner else ViewRule.stable
  deliver p clocks
    (firstChunk p
      (updatePort p
        (fun q =>
          { q with
            state := .transfer
            transfer := some { next := a, rule := rule, epoch := none, buffer := [], arrived := 0, ended := false } })
        s))

/-- The bytes that a request of a port has put on the data output. -/
def putOut (p : Port) (bytes : List Byte) (s : State) : State := updatePort p (fun q => { q with dataOut := bytes }) s

/-- R144, R146: 0xFF for every byte clocked out. -/
def putOnes (p : Port) (clocks : Nat) (s : State) : State := putOut p (List.replicate clocks 0xFF) s

/-- R159: a SOFT RESET clears the latches of the port and, on the owner of a session, reaches the Session Controller. -/
def takeSoftReset (p : Port) (s : State) : State :=
  let s1 := updatePort p (fun q => { q with wel := false, refused := false, progFail := false, eraseFail := false }) s
  if s1.session.owner = some p then sessionSoftReset p s1 else s1

/-- R146: a request that the port takes in READY. -/
def takeReady (p : Port) (r : HostRequest) (s : State) : State :=
  match r with
  | .arrayRead a n => takeArrayRead p a n s
  | .pageProgram a data => takeProgram p a data s
  | .sectorErase a => takeWrite p a 0 (.sectorErase a) (sessionErase p (.sectorErase a)) s
  | .segmentErase a => takeWrite p a 0 (.segmentErase a) (sessionErase p (.segmentErase a)) s
  | .writeEnable =>
    updatePort p (fun q => { q with wel := true, refused := false, progFail := false, eraseFail := false }) s
  | .writeDisable => updatePort p (fun q => { q with wel := false }) s
  | .statusRead n => putOut p (List.replicate n (s.port p).sr1) s
  | .extendedStatusRead n => putOut p (clockedOut (s.extendedStatus p) n) s
  | .identRead n => putOut p (clockedOut Config.identBytes n) s
  | .softReset => takeSoftReset p s
  | .unknownCode _ n => putOnes p n s

/-- R146, R148: a refusal PORT_BUSY. -/
def refuseBusy (p : Port) (r : HostRequest) (s : State) : State :=
  updatePort p (fun q => { (q.outcome .portBusy (requestSeg r)) with wel := q.wel && !clearsWel r }) s

/-- R146: a request in OP_BUSY or COMMIT_BUSY. A PAGE PROGRAM without a data byte is refused as well, where R148 could be read
to have it ignored (DESIGN CHOICE, log entry 33). -/
def takeBusy (p : Port) (r : HostRequest) (s : State) : State :=
  match r with
  | .statusRead n => putOut p (List.replicate n (s.port p).sr1) s
  | .extendedStatusRead n => putOut p (clockedOut (s.extendedStatus p) n) s
  | .softReset => takeSoftReset p s
  | .unknownCode _ n => putOnes p n s
  | .arrayRead _ n => putOnes p n (refuseBusy p r s)
  | .identRead n => putOnes p n (refuseBusy p r s)
  | .pageProgram _ _ => refuseBusy p r s
  | .sectorErase _ => refuseBusy p r s
  | .segmentErase _ => refuseBusy p r s
  | .writeEnable => refuseBusy p r s
  | .writeDisable => refuseBusy p r s

/-- R146: a port takes a request according to its state. -/
def takeRequest (p : Port) (r : HostRequest) (s : State) : State :=
  match (s.port p).state with
  | .ready => takeReady p r s
  | .opBusy => takeBusy p r s
  | .commitBusy => takeBusy p r s
  | .held => s
  | .transfer => s

/-- The bytes the host clocks out of a request that is held: 0xFF under wait (R144). -/
def heldClocks : HostRequest → Option Nat
  | .arrayRead _ n => some n
  | .statusRead n => some n
  | .extendedStatusRead n => some n
  | .identRead n => some n
  | .unknownCode _ n => some n
  | .pageProgram _ _ => none
  | .sectorErase _ => none
  | .segmentErase _ => none
  | .writeEnable => none
  | .writeDisable => none
  | .softReset => none

/-- R124, R151: a port holds a request, with wait asserted; `kept` are the requests it goes on holding. -/
def holdRequest (p : Port) (kept : List HostRequest) (r : HostRequest) (s : State) : State :=
  updatePort p
    (fun q =>
      { q with
        held := kept ++ [r]
        dataOut := match heldClocks r with
          | some n => List.replicate n 0xFF
          | none => q.dataOut })
    s

/-- A request arrives at a port. In HELD it is held in place of any before it, which its host must have ended (R124). At
the end of a transfer it is held behind the requests that are kept (R151, log entry 14). While the host is still reading no
request can arrive (R146). In any other state it is taken. -/
def arrive (p : Port) (r : HostRequest) (s : State) : State :=
  match (s.port p).state with
  | .held => holdRequest p [] r s
  | .transfer =>
    match (s.port p).transfer with
    | some t => if t.ended then holdRequest p ((s.port p).held.filter keptAtTransferEnd) r s else s
    | none => s
  | .ready => takeRequest p r s
  | .opBusy => takeRequest p r s
  | .commitBusy => takeRequest p r s

/-- R125, R151: a port that has become READY takes the requests it holds, in order. The bytes clocked under wait were not
delivered or counted (R144): a request whose host still clocks is taken with the bytes that are clocked out from now on, a
number the host chooses (log entry 14). -/
def takeHeld (p : Port) (clocks : Nat) (s : State) : State :=
  ((s.port p).held.map (withClocks clocks)).foldl (fun x r => takeRequest p r x)
    (updatePort p (fun q => { q with held := [] }) s)

/-- R134, R150, R151: the READ of a host chunk completes: those of its bytes that have not arrived yet pass to the buffer, or
are discarded for an ended transfer, which then ends with the port READY. -/
def hostChunkDone (p : Port) (clocks : Nat) (bytes : List Byte) (s : State) : State :=
  match (s.port p).transfer with
  | none => s
  | some t =>
    if t.ended then takeHeld p clocks (updatePort p (fun q => { q with transfer := none, state := .ready }) s)
    else updatePort p (fun q => { q with transfer := some { t with buffer := t.buffer ++ bytes.drop t.arrived, arrived := 0 } }) s

/-- R124, R151: a host ends a held request: in HELD it is forgotten, at the end of a transfer unless it is one that is
kept. -/
def forgetHeld (p : Port) (s : State) : State :=
  match (s.port p).state with
  | .held => updatePort p (fun q => { q with held := [] }) s
  | .transfer => updatePort p (fun q => { q with held := q.held.filter keptAtTransferEnd }) s
  | .ready => s
  | .opBusy => s
  | .commitBusy => s

/-- R125, R145: at SERVING a port leaves HELD for READY. -/
def releasePort (p : Port) (s : State) : State :=
  updatePort p (fun q => { q with state := if q.state = .held then .ready else q.state }) s

/-- The other host port. -/
def otherPort : Port → Port
  | .hp0 => .hp1
  | .hp1 => .hp0

/-- R126: IMAGE_OK at SERVING. -/
def imageOkAtServing (s : State) : Bool :=
  decide (s.image.state ≠ .virgin) && !s.faults.trialExpired &&
    (!s.seq.straps.chkEn || decide (s.seq.checkResult = .passed))

end Sys2Proof.Machine
end

