-- ==== Sys2Proof/Machine/FlashEvents.lean ====
section
/-!
DEFINITION. The meanings of the events of the Flash Port and its arbiter (chapter 8) and of the completions of the physical
operations that host ports wait for (chapters 2 and 9).
-/

namespace Sys2Proof.Machine

/-- ACCESS_GRANT (R133): the arbiter looks at the slots and grants the first access the flash condition admits. -/
def execAccessGrant (s : State) : Host.Outcome State Fault Refusal := grantNext s

/-- ERASE_SUSPENDED (R137): the suspend count rises by one; a pending READ is granted, or the erase is resumed. -/
def execEraseSuspended (s : State) : Host.Outcome State Fault Refusal :=
  match s.flash.eraseRunning with
  | some e =>
    if e.condition = .suspending then
      grantNext
        (s.setFlash
          { s.flash with erase := some { e with condition := .suspended, suspends := e.suspends + 1 } }.settle)
    else .next s
  | none => .next s

/-- R136: the client of a timed-out program receives TIMEOUT, which it treats as a failure. -/
def programTimedOut (c : Client) (s : State) : State :=
  match c with
  | .hp0 => ownerProgramDone .hp0 false s
  | .hp1 => ownerProgramDone .hp1 false s
  | .log => logProgramDone false s
  | .work => copyProgramDone false s

/-- R136: the client of a timed-out erase receives TIMEOUT, which it treats as a failure. -/
def eraseTimedOut (e : FlashErase) (s : State) : State :=
  match e.client with
  | .hp0 => ownerEraseDone .hp0 e false s
  | .hp1 => ownerEraseDone .hp1 e false s
  | .log => areaStepDone .erase false s
  | .work => s

/-- R136: a flash reset is issued and FLASH_TIMEOUT is raised. -/
def startFlashReset (s : State) : State := raiseFault .flashTimeout (s.setFlash { s.flash with resetting := true })

/-- OPERATION_TIMEOUT (R136): the PROGRAM in flight, or the erase that is RUNNING or SUSPENDING, has reached the limit of its run time. -/
def execOperationTimeout (left : Remains) (s : State) : Host.Outcome State Fault Refusal :=
  match s.flash.transfer with
  | some t =>
    match t.access with
    | .program a data =>
      if Config.programLimit ≤ t.runTime then
        .next (programTimedOut t.client (startFlashReset (finishProgram t.client a data left s)))
      else .next s
    | .read _ _ => .next s
    | .sectorErase _ => .next s
    | .blockErase _ => .next s
  | none =>
    match s.flash.erase with
    | some e =>
      if e.condition ≠ .suspended ∧ e.kind.limit ≤ e.runTime then
        .next (eraseTimedOut e (startFlashReset (finishErase e left s)))
      else .next s
    | none => .next s

/-- FLASH_RESET_COMPLETE (R136): resetting becomes no. -/
def execFlashResetComplete (s : State) : Host.Outcome State Fault Refusal :=
  .next (s.setFlash { s.flash with resetting := false })

/-- R139, R150: the READ of a host chunk completes, and when it is taken first the next chunk is formed with it. -/
def hostChunkThen (p : Port) (x : ChunkEnd) (bytes : List Byte) (s : State) : State :=
  let s1 := hostChunkDone p x.clocks bytes s
  if x.nextFirst && mayFormChunk p s1 then formChunk p s1 else s1

/-- HOST_CHUNK_READ_COMPLETE (R134): the READ of a host chunk completes. -/
def execHostChunkReadComplete (p : Port) (x : ChunkEnd) (s : State) : Host.Outcome State Fault Refusal :=
  match s.flash.readInFlight (portClient p) with
  | some (a, n) =>
    .next (finishReadThen x.nextFirst (portClient p) a n (hostChunkThen p x (readFlash s a n)) s)
  | none => .next s

/-- The erase that a host port waits for and the flash can report complete, with its port. -/
def ownerEraseRunning (s : State) : Option (Port × FlashErase) :=
  match s.flash.eraseRunning with
  | some e => (clientPort e.client).map (fun p => (p, e))
  | none => none

/-- OPENING_ERASE_COMPLETE (R26): the block erase of the shadow of an OPENING entry completes. -/
def execOpeningEraseComplete (r : FlashReport) (s : State) : Host.Outcome State Fault Refusal :=
  match ownerEraseRunning s with
  | some (p, e) =>
    if e.kind = .block ∧ (s.entry (segOfPhys e.addr)).phase = .opening then
      .next (openingDone p (segOfPhys e.addr) (reportOk r) (finishErase e (reportLeft r) s))
    else .next s
  | none => .next s

/-- SHADOW_SECTOR_ERASE_COMPLETE (R27): the physical erase of a fresh shadow sector completes. -/
def execShadowSectorEraseComplete (r : FlashReport) (s : State) : Host.Outcome State Fault Refusal :=
  match ownerEraseRunning s with
  | some (p, e) =>
    if e.kind = .sector then .next (sectorEraseDone p (segOfPhys e.addr) (reportOk r) (finishErase e (reportLeft r) s)) else .next s
  | none => .next s

/-- SHADOW_BLOCK_ERASE_COMPLETE (R28): the block erase of the shadow of an OPEN entry completes. -/
def execShadowBlockEraseComplete (r : FlashReport) (s : State) : Host.Outcome State Fault Refusal :=
  match ownerEraseRunning s with
  | some (p, e) =>
    if e.kind = .block ∧ (s.entry (segOfPhys e.addr)).phase ≠ .opening then
      .next (blockEraseDone p (segOfPhys e.addr) (reportOk r) (finishErase e (reportLeft r) s))
    else .next s
  | none => .next s

/-- OWNER_PROGRAM_COMPLETE (R30, R33): the page program of the session owner completes. -/
def execOwnerProgramComplete (r : FlashReport) (s : State) : Host.Outcome State Fault Refusal :=
  match s.flash.programInFlight with
  | some (c, a, data) =>
    match clientPort c with
    | some p => .next (ownerProgramDone p (reportOk r) (finishProgram c a data (reportLeft r) s))
    | none => .next s
  | none => .next s

end Sys2Proof.Machine
end

