-- ==== Sys2Proof/Machine/HostRequests.lean ====
section
/-!
DEFINITION. The meanings of the requests of the hosts (chapter 9) and of the idle timer's expiry (R36).
-/

namespace Sys2Proof.Machine

/-- ARRAY_READ (R150). -/
def execArrayRead (p : Port) (addr : LogicalAddr) (clocks : Nat) (s : State) : Host.Outcome State Fault Refusal :=
  .next (arrive p (.arrayRead addr clocks) s)

/-- NEXT_CHUNK (R134, R150): bytes of the READ in flight arrive, the bytes the host clocks are delivered, and the next chunk is
formed when the port may form it. -/
def execNextChunk (p : Port) (clocks : Clocking) (s : State) : Host.Outcome State Fault Refusal :=
  let s1 := clockBytes p clocks s
  if mayFormChunk p s1 then .next (formChunk p s1) else .next s1

/-- TRANSFER_END (R134, R151): bytes of the READ in flight arrive, the bytes the host clocks are delivered, and the transfer
ends. -/
def execTransferEnd (p : Port) (clocks : Clocking) (s : State) : Host.Outcome State Fault Refusal :=
  .next (endTransfer p (clockBytes p clocks s))

/-- PAGE_PROGRAM (R149). -/
def execPageProgram (p : Port) (addr : LogicalAddr) (data : List Byte) (s : State) : Host.Outcome State Fault Refusal :=
  .next (arrive p (.pageProgram addr data) s)

/-- SECTOR_ERASE (R27, R149). -/
def execSectorErase (p : Port) (addr : LogicalAddr) (s : State) : Host.Outcome State Fault Refusal :=
  .next (arrive p (.sectorErase addr) s)

/-- SEGMENT_ERASE (R28, R149). -/
def execSegmentErase (p : Port) (addr : LogicalAddr) (s : State) : Host.Outcome State Fault Refusal :=
  .next (arrive p (.segmentErase addr) s)

/-- START_COMMIT (R33): the page program of START-COMMIT to the commit word. -/
def execStartCommit (p : Port) (s : State) : Host.Outcome State Fault Refusal :=
  .next (arrive p (controlProgram .startCommit) s)

/-- ABANDON (R32): the page program of ABANDON to the commit word. -/
def execAbandon (p : Port) (s : State) : Host.Outcome State Fault Refusal :=
  .next (arrive p (controlProgram .abandon) s)

/-- ACCEPT (R102): the page program of ACCEPT to the acceptance word. -/
def execAccept (p : Port) (s : State) : Host.Outcome State Fault Refusal :=
  .next (arrive p (controlProgram .accept) s)

/-- REVERT (R104): the page program of REVERT to the acceptance word. -/
def execRevert (p : Port) (s : State) : Host.Outcome State Fault Refusal :=
  .next (arrive p (controlProgram .revert) s)

/-- WRITE_ENABLE (R148). -/
def execWriteEnable (p : Port) (s : State) : Host.Outcome State Fault Refusal := .next (arrive p .writeEnable s)

/-- WRITE_DISABLE (R148). -/
def execWriteDisable (p : Port) (s : State) : Host.Outcome State Fault Refusal := .next (arrive p .writeDisable s)

/-- STATUS_READ (R156). -/
def execStatusRead (p : Port) (clocks : Nat) (s : State) : Host.Outcome State Fault Refusal :=
  .next (arrive p (.statusRead clocks) s)

/-- EXTENDED_STATUS_READ (R157). -/
def execExtendedStatusRead (p : Port) (clocks : Nat) (s : State) : Host.Outcome State Fault Refusal :=
  .next (arrive p (.extendedStatusRead clocks) s)

/-- IDENT_READ (R158). -/
def execIdentRead (p : Port) (clocks : Nat) (s : State) : Host.Outcome State Fault Refusal :=
  .next (arrive p (.identRead clocks) s)

/-- SOFT_RESET (R159). -/
def execSoftReset (p : Port) (s : State) : Host.Outcome State Fault Refusal := .next (arrive p .softReset s)

/-- UNKNOWN_CODE (R171, R146). -/
def execUnknownCode (p : Port) (code : Byte) (clocks : Nat) (s : State) : Host.Outcome State Fault Refusal :=
  .next (arrive p (.unknownCode code clocks) s)

/-- INCOMPLETE_REQUEST (R144): it is not taken, changes no state, writes no outcome and does not clear WEL. -/
def execIncompleteRequest (_p : Port) (_sent : List Byte) (s : State) : Host.Outcome State Fault Refusal := .next s

/-- HELD_REQUEST_FORGOTTEN (R124, R151). -/
def execHeldRequestForgotten (p : Port) (s : State) : Host.Outcome State Fault Refusal := .next (forgetHeld p s)

/-- IDLE_TIMER_EXPIRY (R36): the timer runs out in ACTIVE, and the session is abandoned with reason IDLE. -/
def execIdleTimerExpiry (s : State) : Host.Outcome State Fault Refusal :=
  if s.session.state = .active ∧ s.session.timer = .running 0 then .next (abandonSession .idle s) else .next s

end Sys2Proof.Machine
end

