-- ==== Sys2Proof/Machine/LogEvents.lean ====
section
/-!
DEFINITION. The meanings of the events of the Log Unit (chapter 5).
-/

namespace Sys2Proof.Machine

/-- R80, R82: the Log Unit can start the request at the head of its queue: none is in progress, and neither a replay nor an
initialisation is. -/
def LogUnit.idle (l : LogUnit) : Bool := l.append.isNone && l.initStep.isNone && l.replay.isNone

/-- APPEND_WRITE (R83, R84): the request at the head of the queue is started. -/
def execAppendWrite (s : State) : Host.Outcome State Fault Refusal :=
  match s.log.queue with
  | b :: _ => if s.log.idle then .next (startAppend b s) else .next s
  | [] => .next s

/-- The PROGRAM of the Log Unit in flight. -/
def logProgramInFlight (s : State) : Option (Nat × List Byte) :=
  match s.flash.programInFlight with
  | some (.log, a, data) => some (a, data)
  | _ => none

/-- RECORD_PROGRAM_COMPLETE (R84 to R86): the program of a record completes. -/
def execRecordProgramComplete (r : FlashReport) (s : State) : Host.Outcome State Fault Refusal :=
  match logProgramInFlight s with
  | some (a, data) => if s.log.atRecord then .next (recordDone (reportOk r) (finishProgram .log a data (reportLeft r) s)) else .next s
  | none => .next s

/-- READ_BACK_COMPLETE (R85, R86): the read-back of a record position completes. -/
def execReadBackComplete (s : State) : Host.Outcome State Fault Refusal :=
  match s.flash.readInFlight .log with
  | some (a, n) =>
    if s.log.atReadBack then .next (readBackDone (readFlash s a n) (finishRead .log a n s)) else .next s
  | none => .next s

/-- MAP_AREA_ERASE_COMPLETE (R88, R95): the block erase of a map area completes. -/
def execMapAreaEraseComplete (r : FlashReport) (s : State) : Host.Outcome State Fault Refusal :=
  match s.flash.eraseRunning with
  | some e =>
    if e.client = .log ∧ s.log.atAreaStep .erase = true then .next (areaStepDone .erase (reportOk r) (finishErase e (reportLeft r) s))
    else .next s
  | none => .next s

/-- AREA_HEADER_PROGRAM_COMPLETE (R88, R95): the program of an area header completes. -/
def execAreaHeaderProgramComplete (r : FlashReport) (s : State) : Host.Outcome State Fault Refusal :=
  match logProgramInFlight s with
  | some (a, data) =>
    if s.log.atAreaStep .header then .next (areaStepDone .header (reportOk r) (finishProgram .log a data (reportLeft r) s)) else .next s
  | none => .next s

/-- BASE_PROGRAM_COMPLETE (R88, R95): the program of the BASE at position 1 completes. -/
def execBaseProgramComplete (r : FlashReport) (s : State) : Host.Outcome State Fault Refusal :=
  match logProgramInFlight s with
  | some (a, data) =>
    if s.log.atAreaStep .base then .next (areaStepDone .base (reportOk r) (finishProgram .log a data (reportLeft r) s)) else .next s
  | none => .next s

end Sys2Proof.Machine
end

