-- ==== Sys2Proof/Machine/StartUp.lean ====
section
/-!
DEFINITION. The meanings of the start-up commands (chapter 7): part reset, the flash-ready wait, replay, initialisation, the
trial step, the start-up check and the release of the ports; and the passing of time.
-/

namespace Sys2Proof.Machine

/-- R129, R142: the operation that the flash is left performing or holding at a part reset. -/
def leftBehind (s : State) : Option Leftover :=
  match s.flash.erase with
  | some e => some (.erase e.addr e.kind.length)
  | none =>
    match s.flash.transfer with
    | some t =>
      match t.access with
      | .program a data => some (.program a data)
      | .read _ _ => s.leftover
      | .sectorErase _ => s.leftover
      | .blockErase _ => s.leftover
    | none => s.leftover

/-- PART_RESET (R114): every block takes its part-reset values; the flash and the queue of commands are left as they are. -/
def execPartReset (s : State) : Host.Outcome State Fault Refusal :=
  .next { State.reset with pending := s.pending, mem := s.mem, leftover := leftBehind s, freeCount := s.freeCount }

/-- PART_RESET_END (R114, R115): FLASH_WAIT begins, the straps are latched and the flash status is polled. -/
def execPartResetEnd (pins : StrapPins) (s : State) : Host.Outcome State Fault Refusal :=
  if s.seq.inReset then
    .next (s.setSeq { s.seq with inReset := false, straps := latchStraps pins, wait := .polling 0 })
  else .next s

/-- FLASH_READY (R117): the flash is not busy within 8 s, and one flash reset is issued. -/
def execFlashReady (s : State) : Host.Outcome State Fault Refusal :=
  match s.seq.wait with
  | .polling ms => if ms < Config.readyLimit then .next (s.setSeq { s.seq with wait := .resetting }) else .next s
  | .none => .next s
  | .resetting => .next s

/-- FLASH_WAIT_TIMEOUT (R117): the flash is still busy at 8 s: FLASH_TIMEOUT is raised and a flash reset issued. -/
def execFlashWaitTimeout (s : State) : Host.Outcome State Fault Refusal :=
  match s.seq.wait with
  | .polling ms =>
    if Config.readyLimit ≤ ms then .next (raiseFault .flashTimeout (s.setSeq { s.seq with wait := .resetting })) else .next s
  | .none => .next s
  | .resetting => .next s

/-- START_UP_FLASH_RESET_COMPLETE (R143, R117): the flash is idle, with what is left of an operation from before the part
reset, and SCAN is entered. -/
def execStartUpFlashResetComplete (left : Remains) (s : State) : Host.Outcome State Fault Refusal :=
  match s.seq.wait with
  | .resetting =>
    let m := match s.leftover with
      | some o => memLeftover s.mem o left
      | none => s.mem
    .next (enterPhase .scan ({ s with mem := m, leftover := none }.setSeq { s.seq with wait := .none }))
  | .none => .next s
  | .polling _ => .next s

/-- Whether the Sequencer has entered a phase and its work has not begun. -/
def atPhase (s : State) (ph : StartPhase) : Bool := decide (s.seq.phase = ph) && decide (s.seq.work = .notBegun)

/-- SCAN (R118, R91): the Log Unit is asked to replay the log, and its first read is placed. -/
def execScan (s : State) : Host.Outcome State Fault Refusal :=
  if atPhase s .scan then .next (replayRead (headAddr 0) (.heads []) (phaseRunning s)) else .next s

/-- REPLAY_READ_COMPLETE (R91 to R96): a read of replay completes. -/
def execReplayReadComplete (s : State) : Host.Outcome State Fault Refusal :=
  match s.log.replay, s.flash.readInFlight .log with
  | some _, some (a, n) => .next (replayTake (readFlash s a n) (finishRead .log a n s))
  | _, _ => .next s

/-- INIT (R119, R95): the Log Unit is asked to initialise map area 0, and its block erase is placed. -/
def execInit (s : State) : Host.Outcome State Fault Refusal :=
  if atPhase s .init then
    let s1 := phaseRunning s
    .next (place .log (.blockErase (areaBase .zero)) (s1.setLog { s1.log with initStep := some .erase }))
  else .next s

/-- TRIAL_STEP (R120): the Image State unit performs the trial step. -/
def execTrialStep (s : State) : Host.Outcome State Fault Refusal :=
  if atPhase s .trialStep then .next (trialStep s) else .next s

/-- CHECK (R121): with CHK_EN on and the image not VIRGIN the first check begins with the header; else none is made. -/
def execCheck (s : State) : Host.Outcome State Fault Refusal :=
  if atPhase s .check then
    if s.seq.straps.chkEn = false ∨ s.image.state = .virgin then .next (s.setSeq { s.seq with work := .ended })
    else .next (startHeader .sequencer (s.setSeq { s.seq with work := .running, checkPass := .first }))
  else .next s

/-- SERVING (R125 to R127, R145): the ports are released, IMAGE_OK is set, and the held requests are taken. -/
def execServing (x : Release) (s : State) : Host.Outcome State Fault Refusal :=
  if s.seq.phase = .check ∧ s.seq.work = .ended then
    let s1 := releasePort .hp1 (releasePort .hp0 (s.setSeq { s.seq with phase := .serving }))
    let s2 := s1.setImage { s1.image with imageOk := imageOkAtServing s }
    .next (takeHeld (otherPort x.first) (releaseClocks x (otherPort x.first)) (takeHeld x.first (releaseClocks x x.first) s2))
  else .next s

/-! ### Time (log entry 16) -/

/-- R35: one ms of the idle timer. -/
def IdleTimer.tick : IdleTimer → IdleTimer
  | .running ms => .running (ms - 1)
  | .paused ms => .paused ms
  | .stopped => .stopped

/-- R135: one ms of run time of a PROGRAM; a READ is not timed (R134). -/
def FlashTransfer.tick (t : FlashTransfer) : FlashTransfer :=
  match t.access with
  | .program _ _ => { t with runTime := min Config.programLimit (t.runTime + 1) }
  | .read _ _ => t
  | .sectorErase _ => t
  | .blockErase _ => t

/-- R135: one ms of run time of an erase; time SUSPENDED is not counted. -/
def FlashErase.tick (e : FlashErase) : FlashErase :=
  match e.condition with
  | .suspended => e
  | .running => { e with runTime := min e.kind.limit (e.runTime + 1) }
  | .suspending => { e with runTime := min e.kind.limit (e.runTime + 1) }

/-- R117: one ms of the ready poll. -/
def FlashWait.tick : FlashWait → FlashWait
  | .polling ms => .polling (min Config.readyLimit (ms + 1))
  | .none => .none
  | .resetting => .resetting

/-- One ms passes: running counters advance and stop at their limits. -/
def passTime (s : State) : State :=
  { s with
    session := { s.session with timer := s.session.timer.tick }
    flash := { s.flash with transfer := s.flash.transfer.map FlashTransfer.tick, erase := s.flash.erase.map FlashErase.tick }
    seq := { s.seq with wait := s.seq.wait.tick } }

end Sys2Proof.Machine
end

