-- ==== Sys2Proof/Machine/Dispatch.lean ====
section
/-!
DEFINITION. The dispatch: one arm for each command, calling its meaning.
-/

namespace Sys2Proof.Machine

def exec (i : Instr) (s : State) : Host.Outcome State Fault Refusal :=
  match i with
  | .partReset => Sys2Proof.Machine.execPartReset s
  | .partResetEnd pins => Sys2Proof.Machine.execPartResetEnd pins s
  | .flashReady => Sys2Proof.Machine.execFlashReady s
  | .flashWaitTimeout => Sys2Proof.Machine.execFlashWaitTimeout s
  | .startUpFlashResetComplete left => Sys2Proof.Machine.execStartUpFlashResetComplete left s
  | .scan => Sys2Proof.Machine.execScan s
  | .replayReadComplete => Sys2Proof.Machine.execReplayReadComplete s
  | .init => Sys2Proof.Machine.execInit s
  | .trialStep => Sys2Proof.Machine.execTrialStep s
  | .check => Sys2Proof.Machine.execCheck s
  | .serving release => Sys2Proof.Machine.execServing release s
  | .arrayRead p addr clocks => Sys2Proof.Machine.execArrayRead p addr clocks s
  | .nextChunk p clocks => Sys2Proof.Machine.execNextChunk p clocks s
  | .transferEnd p clocks => Sys2Proof.Machine.execTransferEnd p clocks s
  | .pageProgram p addr data => Sys2Proof.Machine.execPageProgram p addr data s
  | .sectorErase p addr => Sys2Proof.Machine.execSectorErase p addr s
  | .segmentErase p addr => Sys2Proof.Machine.execSegmentErase p addr s
  | .startCommit p => Sys2Proof.Machine.execStartCommit p s
  | .abandon p => Sys2Proof.Machine.execAbandon p s
  | .accept p => Sys2Proof.Machine.execAccept p s
  | .revert p => Sys2Proof.Machine.execRevert p s
  | .writeEnable p => Sys2Proof.Machine.execWriteEnable p s
  | .writeDisable p => Sys2Proof.Machine.execWriteDisable p s
  | .statusRead p clocks => Sys2Proof.Machine.execStatusRead p clocks s
  | .extendedStatusRead p clocks => Sys2Proof.Machine.execExtendedStatusRead p clocks s
  | .identRead p clocks => Sys2Proof.Machine.execIdentRead p clocks s
  | .softReset p => Sys2Proof.Machine.execSoftReset p s
  | .unknownCode p code clocks => Sys2Proof.Machine.execUnknownCode p code clocks s
  | .incompleteRequest p sent => Sys2Proof.Machine.execIncompleteRequest p sent s
  | .heldRequestForgotten p => Sys2Proof.Machine.execHeldRequestForgotten p s
  | .idleTimerExpiry => Sys2Proof.Machine.execIdleTimerExpiry s
  | .accessGrant => Sys2Proof.Machine.execAccessGrant s
  | .eraseSuspended => Sys2Proof.Machine.execEraseSuspended s
  | .operationTimeout left => Sys2Proof.Machine.execOperationTimeout left s
  | .flashResetComplete => Sys2Proof.Machine.execFlashResetComplete s
  | .hostChunkReadComplete p chunkEnd => Sys2Proof.Machine.execHostChunkReadComplete p chunkEnd s
  | .openingEraseComplete r => Sys2Proof.Machine.execOpeningEraseComplete r s
  | .shadowSectorEraseComplete r => Sys2Proof.Machine.execShadowSectorEraseComplete r s
  | .shadowBlockEraseComplete r => Sys2Proof.Machine.execShadowBlockEraseComplete r s
  | .ownerProgramComplete r => Sys2Proof.Machine.execOwnerProgramComplete r s
  | .checkChunkReadComplete nextFirst => Sys2Proof.Machine.execCheckChunkReadComplete nextFirst s
  | .checkRangeResult => Sys2Proof.Machine.execCheckRangeResult s
  | .descriptorReadComplete nextFirst => Sys2Proof.Machine.execDescriptorReadComplete nextFirst s
  | .copyReadComplete => Sys2Proof.Machine.execCopyReadComplete s
  | .copyProgramComplete r => Sys2Proof.Machine.execCopyProgramComplete r s
  | .appendWrite => Sys2Proof.Machine.execAppendWrite s
  | .recordProgramComplete r => Sys2Proof.Machine.execRecordProgramComplete r s
  | .readBackComplete => Sys2Proof.Machine.execReadBackComplete s
  | .mapAreaEraseComplete r => Sys2Proof.Machine.execMapAreaEraseComplete r s
  | .areaHeaderProgramComplete r => Sys2Proof.Machine.execAreaHeaderProgramComplete r s
  | .baseProgramComplete r => Sys2Proof.Machine.execBaseProgramComplete r s
  | .switchTakesEffect => Sys2Proof.Machine.execSwitchTakesEffect s

end Sys2Proof.Machine
end

