-- ==== Sys2Proof/Safety.lean ====
section
/-!
DEFINITION. What a sound state is: the properties the chapters give each block in every state, as invariants that the
statements are about.
-/

namespace Sys2Proof.Machine

/-! ### The Segment Map -/

/-- Table 1.1, R3 to R5: outside an update the fresh mask is empty and the damaged flag no; while an entry is OPENING both
still are, and only then are sectors kept for the opening. -/
def MapEntry.sound (e : MapEntry) : Bool :=
  match e.phase with
  | .stable => decide (e.fresh = 0) && !e.damaged && decide (e.toOpen = 0)
  | .opening => decide (e.fresh = 0) && !e.damaged
  | .opened => decide (e.toOpen = 0)
  | .filling => decide (e.toOpen = 0)
  | .ready => decide (e.toOpen = 0)

/-- R1: the table holds exactly 255 entries, each of them sound. -/
def SegmentMap.sound (m : SegmentMap) : Bool :=
  decide (m.entries.length = Config.mappedSegments) && m.entries.all MapEntry.sound

/-! ### The Flash Port and its arbiter -/

/-- Whether a slot is GRANTED with an access. -/
def Slot.holds (x : Slot) (a : Access) : Bool := decide (x = .granted a)

/-- Table 8.2: the access that an erase in progress was granted as. -/
def FlashErase.access (e : FlashErase) : Access :=
  match e.kind with
  | .sector => .sectorErase e.addr
  | .block => .blockErase e.addr

/-- R130, R133: a slot is GRANTED exactly while its access is in flight or in progress. -/
def FlashPort.slotSound (f : FlashPort) (c : Client) : Bool :=
  match f.slot c with
  | .granted a =>
    (match f.transfer with
      | some t => decide (t.client = c) && decide (t.access = a)
      | none => false) ||
    (match f.erase with
      | some e => decide (e.client = c) && decide (e.access = a)
      | none => false)
  | .pending _ => true
  | .empty => true

/-- R133, R136, R137: at most one physical operation runs at a time; a READ alone is in flight while an erase is in
progress, which then is SUSPENDED; during a flash reset nothing is in flight; an erase is suspended at most 32 times, and
its suspend count is below 32 while a suspend is under way. -/
def FlashPort.operationsSound (f : FlashPort) : Bool :=
  (match f.transfer with
    | some t =>
      (f.slot t.client).holds t.access && !f.resetting &&
        (match t.access with
          | .read _ _ => true
          | .program _ _ => f.erase.isNone
          | .sectorErase _ => false
          | .blockErase _ => false) &&
        (match f.erase with
          | some e => decide (e.condition = .suspended)
          | none => true)
    | none => true) &&
  (match f.erase with
    | some e =>
      (f.slot e.client).holds e.access && !f.resetting && decide (e.suspends ≤ Config.suspendBudget) &&
        (decide (e.condition ≠ .suspending) || decide (e.suspends < Config.suspendBudget))
    | none => true)

/-- The Flash Port is sound. -/
def FlashPort.sound (f : FlashPort) : Bool :=
  f.slotSound .hp0 && f.slotSound .hp1 && f.slotSound .log && f.slotSound .work && f.operationsSound

/-! ### The host ports -/


/-- Tables 9.1, 9.2: a port has a transfer exactly in TRANSFER and a request in flight exactly in OP_BUSY, which addresses a
mapped segment (R149); it holds requests only in HELD and at the end of a transfer. -/
def HostPort.sound (q : HostPort) : Bool :=
  decide (q.transfer.isSome = true ↔ q.state = .transfer) &&
  decide (q.inFlight.isSome = true ↔ q.state = .opBusy) &&
  (match q.inFlight with
    | some f => decide (segOf f.addr < Config.mappedSegments)
    | none => true) &&
  (match q.transfer with
    | some t => t.epoch.isNone || !t.ended
    | none => true) &&
  (q.held.isEmpty || decide (q.state = .held) ||
    (match q.transfer with
      | some t => t.ended
      | none => false))

/-- R14: whether a port counts in the pinned-transfer count. -/
def HostPort.pins (q : HostPort) : Nat :=
  match q.transfer with
  | some t => if t.epoch.isSome then 1 else 0
  | none => 0

/-- Both ports are sound, and the pinned-transfer count is the number of pinned transfers (R14). -/
def State.portsSound (s : State) : Bool :=
  s.hp0.sound && s.hp1.sound && decide (s.map.pinned = s.hp0.pins + s.hp1.pins)

/-! ### The Start-up Sequencer -/

/-- Whether a record is a TRIAL. -/
def RecordBody.isTrial : RecordBody → Bool
  | .trial _ => true
  | .base _ => false
  | .opened => false
  | .commit _ _ _ _ => false
  | .confirm _ => false
  | .rollback _ _ _ => false

/-- The TRIAL records asked for and not yet answered. -/
def State.trialsAsked (s : State) : Nat := (s.log.queue.filter RecordBody.isTrial).length

/-- Whether the rollback in progress is one of a start-up. -/
def State.startRollback (s : State) : Bool :=
  match s.image.rollback with
  | some (.sequencer, _) => true
  | some (.port _, _) => false
  | none => false

/-- Whether the reader at work is that of the start-up check. -/
def State.startReader (s : State) : Bool :=
  match s.reader with
  | some r => decide (r.client = .sequencer)
  | none => false

/-- R114, R117: the work of FLASH_WAIT is done in FLASH_WAIT. -/
def State.waitSound (s : State) : Prop :=
  (s.seq.inReset = true → s.seq.phase = .flashWait ∧ s.seq.wait = .none) ∧
  (s.seq.wait ≠ .none → s.seq.phase = .flashWait)

/-- R118 to R122: the work of each later phase is done in that phase, and each phase has one work at a time. -/
def State.phaseWorkSound (s : State) : Prop :=
  (s.log.replay.isSome = true → s.seq.phase = .scan) ∧
  (s.log.initStep.isSome = true → s.seq.phase = .init) ∧
  s.trialsAsked ≤ 1 ∧
  (s.trialsAsked = 1 → s.seq.phase = .trialStep ∧ s.seq.work = .running) ∧
  (s.startReader = true → s.seq.phase = .check ∧ s.seq.work = .running) ∧
  (s.startRollback = true →
    s.trialsAsked = 0 ∧ s.startReader = false ∧ s.seq.work = .running ∧
      (match s.image.rollback with
        | some (_, .trialExpired) => s.seq.phase = .trialStep
        | some (_, .startCheck) => s.seq.phase = .check
        | some (_, .requested) => False
        | none => False))

/-- R124, R125: until SERVING both ports are HELD, with no transfer, and from SERVING on neither is. -/
def State.holdSound (s : State) : Prop :=
  (s.seq.phase ≠ .serving → s.map.pinned = 0) ∧
  ∀ p : Port, (s.seq.phase ≠ .serving → (s.port p).state = .held ∧ (s.port p).transfer = none) ∧
    (s.seq.phase = .serving → (s.port p).state ≠ .held)

/-- The start-up of the part is sound: the work of a phase is done in that phase, and the ports are held until SERVING. -/
def State.startUpSound (s : State) : Prop := s.waitSound ∧ s.phaseWorkSound ∧ s.holdSound

/-! ### The Log Unit and the fault set -/

/-- Section 10.1: LOG_FAULT and LOG_CORRUPT stand exactly as long as the Log Unit is FAULTED or CORRUPT. -/
def State.logFaultsSound (s : State) : Bool :=
  decide (s.faults.logFault = true ↔ s.log.lock = .faulted) && decide (s.faults.logCorrupt = true ↔ s.log.lock = .corrupt)

/-- Table 5.2, R84, R86, R93: the append position lies from 2 to 512, a record is being written only below 512, and a replay
stands at a record position. -/
def LogUnit.sound (l : LogUnit) : Bool :=
  decide (2 ≤ l.position) && decide (l.position ≤ Config.positions) &&
  (match l.append with
    | some w => decide (l.position < Config.positions) || (decide (w.stage ≠ .write) && decide (w.stage ≠ .retryWrite))
    | none => true) &&
  (match l.replay with
    | some (.walk w) =>
      decide (2 ≤ w.position) && decide (w.position < Config.positions) &&
        (match w.miss with
          | some k => decide (2 ≤ k) && decide (k ≤ Config.positions)
          | none => true)
    | some (.heads _) => true
    | none => true)

/-! ### The Commit Engine -/

/-- Table 4.1: in FILL the cursor names a mapped segment and one of its 16 sectors, and the page is one of 16. -/
def CommitRecord.sound (c : CommitRecord) : Bool :=
  decide (c.stage ≠ .fill) ||
    (decide (c.page < 16) &&
      (match c.cursor with
        | some cur => decide (cur.seg < Config.mappedSegments) && decide (cur.sector < 16)
        | none => true))

/-- R6, R61: `t` is `s` after the engine has gone on with its fill at the entries from a segment on: every OPEN entry whose
mask is full is READY; at the first other OPEN entry, which is FILLING, the copy of page 0 of its lowest stale sector has
begun; with none left VERIFY is entered, with the descriptor of the first used segment being read, or RECORD when no segment
is used (R53, R66). The cursor's sector in VERIFY is the model's choice (log entry 30). -/
def State.FillGoesOn (s : State) (start : Nat) (sm : HeaderSummary) (t : State) : Prop :=
  let stale : Nat → Prop := fun seg =>
    start ≤ seg ∧ seg < 255 ∧ (s.entry seg).phase = .opened ∧ (s.entry seg).fresh ≠ 0xFFFF
  ∃ es : List MapEntry, es.length = s.map.entries.length ∧
    (∀ seg sector, stale seg → (∀ k < seg, ¬stale k) → sector < 16 → (s.entry seg).fresh.getLsbD sector = false →
      (∀ j < sector, (s.entry seg).fresh.getLsbD j = true) →
        (∀ k < 255,
          entryOf es k =
            if start ≤ k ∧ k ≤ seg ∧ (s.entry k).phase = .opened then
              { s.entry k with phase := if k = seg then .filling else .ready }
            else s.entry k) ∧
        t =
          { s with
            map := { s.map with entries := es }
            commit := { s.commit with stage := .fill, cursor := some { seg := seg, sector := sector }, page := 0, buffer := none }
            flash :=
              { s.flash with slotWork := .pending (.read (physAddr (s.entry seg).bank seg (sector * 0x1000)) 256) } }) ∧
    ((∀ k, ¬stale k) →
      (∀ k < 255,
        entryOf es k =
          if start ≤ k ∧ (s.entry k).phase = .opened then { s.entry k with phase := .ready } else s.entry k) ∧
      (∀ seg, sm.used.getD seg 0 ≠ 0 → (∀ k < seg, sm.used.getD k 0 = 0) →
        t =
          { s with
            map := { s.map with entries := es }
            commit := { s.commit with stage := .verify, cursor := some { seg := seg, sector := 0 } }
            reader := some { client := .commitEngine, work := .descriptor seg }
            flash := { s.flash with slotWork := .pending (.read (translate .candidate es 0 (0x10 + 8 * seg)) 8) } }) ∧
      ((∀ k, sm.used.getD k 0 = 0) →
        let bitmap := mapBitmap es ^^^ readySet es
        t =
          { s with
            map := { s.map with entries := es }
            commit := { s.commit with stage := .record, cursor := none, newBitmap := some bitmap }
            reader := none
            log :=
              { s.log with
                queue := s.log.queue ++ [.commit bitmap sm.serial sm.headerCrc s.seq.straps.trialLim] } }))

/-! ### The end of a session -/

/-- R7, R37: a state after its session has ended: with an open count above 0 every entry in OPEN, FILLING or READY is STABLE
again with its bank unchanged, the lock is FREE and the session record is that of no session. -/
def State.sessionEnded (s : State) : State :=
  { s with
    map :=
      { s.map with
        entries :=
          if 0 < s.session.openCount then
            s.map.entries.map (fun (e : MapEntry) =>
              if e.phase = .stable ∨ e.phase = .opening then e
              else { bank := e.bank, phase := .stable, fresh := 0, damaged := false, toOpen := 0 })
          else s.map.entries }
    session :=
      { lock := .free, state := .nobody, owner := none, openCount := 0, openLogged := false, timer := .stopped,
        endReason := none } }

/-! ### Commands -/

/-- The port whose host sends a command, for the requests of the hosts (chapter 9). -/
def requestPort : Instr → Option Port
  | .arrayRead p _ _ => some p
  | .nextChunk p _ => some p
  | .transferEnd p _ => some p
  | .pageProgram p _ _ => some p
  | .sectorErase p _ => some p
  | .segmentErase p _ => some p
  | .startCommit p => some p
  | .abandon p => some p
  | .accept p => some p
  | .revert p => some p
  | .writeEnable p => some p
  | .writeDisable p => some p
  | .statusRead p _ => some p
  | .extendedStatusRead p _ => some p
  | .identRead p _ => some p
  | .softReset p => some p
  | .unknownCode p _ _ => some p
  | .incompleteRequest p _ => some p
  | .heldRequestForgotten p => some p
  | .partReset => none
  | .partResetEnd _ => none
  | .flashReady => none
  | .flashWaitTimeout => none
  | .startUpFlashResetComplete _ => none
  | .scan => none
  | .replayReadComplete => none
  | .init => none
  | .trialStep => none
  | .check => none
  | .serving _ => none
  | .idleTimerExpiry => none
  | .accessGrant => none
  | .eraseSuspended => none
  | .operationTimeout _ => none
  | .flashResetComplete => none
  | .hostChunkReadComplete _ _ => none
  | .openingEraseComplete _ => none
  | .shadowSectorEraseComplete _ => none
  | .shadowBlockEraseComplete _ => none
  | .ownerProgramComplete _ => none
  | .checkChunkReadComplete _ => none
  | .checkRangeResult => none
  | .descriptorReadComplete _ => none
  | .copyReadComplete => none
  | .copyProgramComplete _ => none
  | .appendWrite => none
  | .recordProgramComplete _ => none
  | .readBackComplete => none
  | .mapAreaEraseComplete _ => none
  | .areaHeaderProgramComplete _ => none
  | .baseProgramComplete _ => none
  | .switchTakesEffect => none

/-- The active banks of the map. -/
def State.banks (s : State) : List Bank := s.map.entries.map MapEntry.bank

end Sys2Proof.Machine
end

