-- ==== Sys2Proof/Certificates/Slice0/Obligations.lean ====
section
/-!
DEFINITION. The statements for the provers, from the rules of spec/. Each docstring names the rules a statement comes from.
-/

section

open Sys2Proof Sys2Proof.Machine

/-! ### Steps, requests on the wires, formats -/

/-- One step takes the command at the front of the queue and runs it with the queue's rest. -/
def Obligations.StepTakesTheFrontCommand : Prop :=
  ∀ (c : Instr) (rest : List Instr) (s : State), s.pending = c :: rest → step s = exec c (s.withPending rest)

/-- The model's choice (log entry 16): a step on an empty queue is one ms. The counters that R35, R117 and R135 call running
advance, the others and every other part of the state stay. -/
def Obligations.IdleStepPassesOneMs : Prop :=
  ∀ s : State, s.pending = [] →
    ∃ t : State, step s = .next t ∧
      (∀ ms, s.session.timer = .running ms → t.session = { s.session with timer := .running (ms - 1) }) ∧
      ((∀ ms, s.session.timer ≠ .running ms) → t.session = s.session) ∧
      (∀ e, s.flash.erase = some e →
        t.flash.erase =
          some (if e.condition = .suspended then e else { e with runTime := min e.kind.limit (e.runTime + 1) })) ∧
      (s.flash.erase = none → t.flash.erase = none) ∧
      (∀ x, s.flash.transfer = some x → (∀ a data, x.access ≠ .program a data) → t.flash.transfer = some x) ∧
      (∀ x a data, s.flash.transfer = some x → x.access = .program a data →
        t.flash.transfer = some { x with runTime := min 8 (x.runTime + 1) }) ∧
      (s.flash.transfer = none → t.flash.transfer = none) ∧
      (∀ ms, s.seq.wait = .polling ms → t.seq = { s.seq with wait := .polling (min 8000 (ms + 1)) }) ∧
      ((∀ ms, s.seq.wait ≠ .polling ms) → t.seq = s.seq) ∧
      t =
        { s with
          session := t.session
          flash := { s.flash with transfer := t.flash.transfer, erase := t.flash.erase }
          seq := t.seq }

/-- R144, R171, Table 12.9: the bytes of every request decode to that request, with every address and every data byte; and
whatever bytes a host clocks in, what they decode to is well formed. -/
def Obligations.RequestBytesDecodeBack : Prop :=
  (∀ (p : Port) (r : HostRequest), (∀ code n, r = .unknownCode code n → code ∉ commandCodes) →
    decodeRequest p (requestBytes r) (requestClocks r) = requestCommand p r) ∧
  (∀ (p : Port) (sent : List Byte) (clocks : Nat), (decodeRequest p sent clocks).wellFormed = true)

/-- R18, R78, R79, R170, Tables 12.2 to 12.4: every record the Log Unit writes takes one position, is not erased, and is read
back as a valid record with its sequence number and its body, whose bitmaps have no bit of segment 255; every area header
takes one position, is valid with its generation, and holds 0x00 outside its fields. In the 32 bytes of a bitmap the bit of
segment s is bit (s mod 8) of byte (s div 8), and that of segment 255 is 0. -/
def Obligations.WrittenPositionsReadBack : Prop :=
  (∀ (seq : Word32) (body : RecordBody),
    (recordBytes seq body).length = 128 ∧ erasedBytes (recordBytes seq body) = false ∧
      ((∀ bm ∈ recordBitmaps body, bm.getLsbD 255 = false) → validRecord (recordBytes seq body) = some (seq, body))) ∧
  (∀ generation : Word32,
    (areaHeaderBytes generation).length = 128 ∧ areaGeneration (areaHeaderBytes generation) = some generation ∧
      (areaHeaderBytes generation).drop 12 = List.replicate 116 0x00) ∧
  (∀ (bm : Bitmap) (seg : Nat), (bitmapBytes bm).length = 32 ∧
    (seg ≤ 255 →
      ((bitmapBytes bm).getD (seg / 8) 0).getLsbD (seg % 8) = (decide (seg < 255) && bm.getLsbD seg)))

/-- R81, R92: replay applies the records that appends have written one after another, in order and each once. -/
def Obligations.ReplayAppliesWrittenRecords : Prop :=
  ∀ (w : ReplayWalk) (bodies : List RecordBody), w.miss = none →
    (∀ body ∈ bodies, ∀ bm ∈ recordBitmaps body, bm.getLsbD 255 = false) →
      (bodies.mapIdx (fun k b => recordBytes (w.last + 1 + BitVec.ofNat 32 k) b)).foldl walkPosition w =
        { w with
          position := w.position + bodies.length
          last := w.last + BitVec.ofNat 32 bodies.length
          summary := bodies.foldl applyRecord w.summary }

/-- R92, R93: positions that do not hold the expected record are passed over when a later position holds it; when none does,
the append position is one above the highest position that is not erased, or the position where the log ends when all of
them are erased, and the summary and the last sequence stay. -/
def Obligations.ReplayPassesOverAndEnds : Prop :=
  (∀ (w : ReplayWalk) (passed : List (List Byte)) (body : RecordBody),
    (∀ bs ∈ passed, ∀ b, validRecord bs ≠ some (w.last + 1, b)) → (∀ bm ∈ recordBitmaps body, bm.getLsbD 255 = false) →
      (passed ++ [recordBytes (w.last + 1) body]).foldl walkPosition w =
        { w with
          position := w.position + passed.length + 1
          last := w.last + 1
          summary := applyRecord w.summary body
          miss := none }) ∧
  (∀ (w : ReplayWalk) (written erased : List (List Byte)), w.miss = none → written ++ erased ≠ [] →
    (∀ bs ∈ written ++ erased, ∀ b, validRecord bs ≠ some (w.last + 1, b)) →
    (∀ bs, written.getLast? = some bs → erasedBytes bs = false) → (∀ bs ∈ erased, erasedBytes bs = true) →
      (written ++ erased).foldl walkPosition w =
        { w with position := w.position + (written ++ erased).length, miss := some (w.position + written.length) })

/-- R44, R45, Table 12.1: the header summary formed from the 2,056 bytes of a header range: valid exactly when the six
conditions hold, with the serial, the stored header CRC and the 255 used lengths as read. -/
def Obligations.HeaderIsJudgedByItsFields : Prop :=
  ∀ (bytes : List Byte) (crc : Word32), bytes.length = 2056 →
    let sm := headerSummary (captureWords HeaderCapture.empty 0 bytes) crc
    (sm.valid = true ↔
      le32At bytes 0x000 = 0x494B4C55 ∧ le16At bytes 0x004 = 1 ∧ le16At bytes 0x006 = 255 ∧
        le32At bytes 0x008 ≠ 0 ∧ le32At bytes 0x008 ≠ 0xFFFFFFFF ∧ le32At bytes 0x00C = crc ∧
        ∀ seg < 255, (le32At bytes (0x010 + 8 * seg)).toNat ≤ if seg = 0 then 61440 else 65536) ∧
    sm.serial = le32At bytes 0x008 ∧ sm.headerCrc = le32At bytes 0x00C ∧
    sm.used = (List.range 255).map (fun seg => le32At bytes (0x010 + 8 * seg))

/-- R51, R52: over a header range the Check Unit computes the CRC-32 of the bytes with the four bytes of the header CRC field
set to zero, whatever they are, and the client captures those bytes as the stored header CRC; over a segment range every
byte enters as passed. -/
def Obligations.HeaderRangeTakesItsCrcFieldAsZero : Prop :=
  (∀ (client : CheckClient) (before field after : List Byte), before.length = 12 → field.length = 4 →
    crcFinish (((before ++ field ++ after).foldl CheckUnit.take
      (CheckUnit.start client .header (before ++ field ++ after).length)).crc) =
        crc32 (before ++ [0x00, 0x00, 0x00, 0x00] ++ after) ∧
    ((before ++ field ++ after).length = 2056 → ∀ computed : Word32,
      (headerSummary (captureWords HeaderCapture.empty 0 (before ++ field ++ after)) computed).headerCrc =
        le32At field 0)) ∧
  (∀ (client : CheckClient) (bytes : List Byte),
    crcFinish ((bytes.foldl CheckUnit.take (CheckUnit.start client .segment bytes.length)).crc) = crc32 bytes)

/-- R156, R157, R167, Tables 12.5 to 12.8: SR1, SR2, the fault set byte and the nine bytes of the extended status record, with
the values of the session field, of the image state and of every outcome code. BUSY, bit 0 of SR1, is set exactly in OP_BUSY
and COMMIT_BUSY. -/
def Obligations.StatusBytesFollowTheTables : Prop :=
  (∀ q : HostPort, q.busy = true ↔ q.state = .opBusy ∨ q.state = .commitBusy) ∧
  (∀ q : HostPort,
    q.sr1.toNat = q.busy.toNat + 2 * q.wel.toNat + 4 * q.refused.toNat + 8 * q.progFail.toNat + 16 * q.eraseFail.toNat) ∧
  (∀ (s : State) (p : Port),
    (s.sr2 p).toNat =
      (sessionField s.session p).code.toNat + 4 * s.image.state.code.toNat + 16 * s.image.targetValid.toNat +
        32 * s.lineImageOk.toNat) ∧
  (∀ f : FaultSet,
    f.byte.toNat =
      f.flashTimeout.toNat + 2 * f.logFault.toNat + 4 * f.logCorrupt.toNat + 8 * f.noValidImage.toNat +
        16 * f.trialExpired.toNat) ∧
  (∀ (s : State) (p : Port),
    s.extendedStatus p =
      [(s.port p).sr1, s.sr2 p, (s.port p).code.byte, (s.port p).seg, s.faults.byte,
        s.image.serial.extractLsb' 0 8, s.image.serial.extractLsb' 8 8, s.image.serial.extractLsb' 16 8,
        s.image.serial.extractLsb' 24 8]) ∧
  [SessionField.nobody, .own, .other, .commit].map SessionField.code = [0, 1, 2, 3] ∧
  [ImageState.virgin, .confirmed, .trial, .confirming].map ImageState.code = [0, 1, 2, 3] ∧
  [Code.success, .portBusy, .notUpdatePort, .sessionOther, .noSession, .sectorNotFresh, .outOfRange, .pageCross, .notOnTrial,
      .noTarget, .updatesLocked, .engineBusy].map Code.byte =
    [0x00, 0x10, 0x11, 0x12, 0x13, 0x14, 0x15, 0x16, 0x17, 0x18, 0x19, 0x1A] ∧
  [Code.committed, .headerBad, .staleSerial, .checkMismatch, .shadowDamaged, .fillFail, .logFail, .abandonedIdle,
      .abandonedOwner, .confirmed, .rolledBack, .opFailed].map Code.byte =
    [0x20, 0x21, 0x22, 0x23, 0x24, 0x25, 0x26, 0x27, 0x28, 0x29, 0x2A, 0x30]

/-- R166: the session field of SR2: COMMIT on both ports in CLOSING, OWN on the owner and OTHER on the other port in any
other session state, OTHER on both ports during a rollback, and NONE exactly when the update lock is FREE. It stands in bits 0
and 1 of SR2, the second byte of the record, which is formed from the state at that moment. -/
def Obligations.SessionFieldFollowsTheLock : Prop :=
  (∀ (x : Session) (p : Port),
    (x.lock = .session → x.state = .closing → sessionField x p = .commit) ∧
    (x.lock = .session → x.state ≠ .closing → sessionField x p = if x.owner = some p then .own else .other) ∧
    (x.lock = .rollback → sessionField x p = .other) ∧
    (sessionField x p = .nobody ↔ x.lock = .free)) ∧
  (∀ (s : State) (p : Port), (s.extendedStatus p).length = 9 ∧
    ((s.extendedStatus p).getD 1 0).toNat % 4 = (sessionField s.session p).code.toNat)

/-- R162 to R165: before SERVING the three lines are low; from then on FAULT is high while the fault set holds a member,
UPDATING while the lock is taken or the image state is CONFIRMING, and IMAGE_OK as the Image State unit drives it. A raise
leaves FAULT high, and a switch lowers it exactly when the members left are NO_VALID_IMAGE and TRIAL_EXPIRED alone. R144, R150,
R151, Table 12.11: the wait output of a port is high in HELD, in TRANSFER with no byte in the buffer, and in TRANSFER when the
host has ended the transfer, and low otherwise. -/
def Obligations.LinesFollowTheState : Prop :=
  (∀ q : HostPort,
    q.wait = true ↔
      q.state = .held ∨ (q.state = .transfer ∧ ∃ t, q.transfer = some t ∧ (t.buffer = [] ∨ t.ended = true))) ∧
  ∀ s : State,
    (s.seq.phase ≠ .serving → s.lineFault = false ∧ s.lineUpdating = false ∧ s.lineImageOk = false) ∧
    (s.seq.phase = .serving →
      (s.lineFault = true ↔ s.faults ≠ FaultSet.empty) ∧
      (s.lineUpdating = true ↔ s.session.lock = .session ∨ s.session.lock = .rollback ∨ s.image.state = .confirming) ∧
      (s.lineImageOk = true ↔ s.image.imageOk = true) ∧
      (∀ m, (raiseFault m s).lineFault = true) ∧
      (State.lineFault { s with faults := s.faults.afterSwitch } = false ↔
        s.faults.flashTimeout = false ∧ s.faults.logFault = false ∧ s.faults.logCorrupt = false))

/-! ### The map and its views -/

/-- R1, R8 to R11, Table 1.3: the copy that each view returns in each phase of an entry; the parts of a logical address make it
up, and an address of a mapped segment translates to the same offset of the returned copy, never into a map area. -/
def Obligations.ViewsTranslateIntoTheCopies : Prop :=
  (∀ (e : MapEntry) (sector : Nat),
    viewBank .stable e sector = e.bank ∧
    (viewBank .update e sector =
      if e.phase = .opened ∧ e.fresh.getLsbD sector = true then e.bank.other else e.bank) ∧
    (viewBank .candidate e sector =
      if e.phase = .ready ∨ ((e.phase = .opened ∨ e.phase = .filling) ∧ e.fresh.getLsbD sector = true) then e.bank.other
      else e.bank)) ∧
  (∀ (v : View) (es : List MapEntry) (a : LogicalAddr),
    segOf a = a.toNat / 0x10000 ∧ segOf a * 0x10000 + offsetOf a = a.toNat ∧ sectorOf a < 16 ∧
    sectorOf a * 0x1000 ≤ offsetOf a ∧ offsetOf a < sectorOf a * 0x1000 + 0x1000 ∧
    (segOf a < 255 →
      translate v es (segOf a) (offsetOf a) =
        a.toNat + (if viewBank v (entryOf es (segOf a)) (sectorOf a) = .b then 0x1000000 else 0) ∧
      translate v es (segOf a) (offsetOf a) < 0x2000000 ∧
      ∀ area : Area,
        ¬(areaBase area ≤ translate v es (segOf a) (offsetOf a) ∧
          translate v es (segOf a) (offsetOf a) < areaBase area + 0x10000)))

/-- R15, R17, R18, R68: the bitmap of a map has the bit of each segment whose active bank is B and no other, and the map takes
every bank of a bitmap, with bit 255 disregarded; a commit switch gives the map whose bitmap is the recorded one (every READY
bit inverted), and a rollback switch the map of its target bitmap. -/
def Obligations.SwitchesGiveTheRecordedMaps : Prop :=
  ∀ es : List MapEntry, es.length = 255 →
    (∀ seg, (mapBitmap es).getLsbD seg = decide (seg < 255 ∧ (entryOf es seg).bank = .b)) ∧
    (∀ (bm : Bitmap) (seg : Nat), seg < 255 →
      entryOf (banksFrom bm es) seg = { entryOf es seg with bank := if bm.getLsbD seg then .b else .a }) ∧
    banksFrom (mapBitmap es) es = es ∧
    (∀ epoch : Word32,
      mapBitmap (flipEntries { requester := .commitEngine, flip := readySet es, endsEpoch := epoch } es) =
        mapBitmap es ^^^ readySet es) ∧
    (∀ (epoch : Word32) (target : Bitmap) (seg : Nat), seg < 255 →
      (mapBitmap (flipEntries { requester := .imageState, flip := rollbackFlip es target, endsEpoch := epoch } es)).getLsbD
        seg = target.getLsbD seg)

/-! ### The flash contents -/

/-- Table 8.1, R135: a program that the flash takes leaves the AND of the old byte and the data byte; an erase that it takes
leaves every byte of its range 0xFF. Whatever the flash leaves of either, every address outside it reads as before, and a
program only clears bits. -/
def Obligations.OperationsStayInTheirRange : Prop :=
  ∀ (m : List Host.Cell) (a n : Nat) (data : List Byte) (left : Remains) (x : Nat), Memory.wf m = true →
    (memRead (memProgram m a data []) x =
      if a ≤ x ∧ x < a + data.length then memRead m x &&& data.getD (x - a) 0xFF else memRead m x) ∧
    (a ≤ x → x < a + n → memRead (memErase m a n []) x = 0xFF) ∧
    (¬(a ≤ x ∧ x < a + n) → memRead (memErase m a n left) x = memRead m x) ∧
    (¬(a ≤ x ∧ x < a + data.length) → memRead (memProgram m a data left) x = memRead m x) ∧
    memRead (memProgram m a data left) x &&& memRead m x = memRead (memProgram m a data left) x

/-! ### What every step keeps -/

/-- The state after reset is sound in every way the statements below speak of. -/
def Obligations.ResetStateIsSound : Prop :=
  Memory.wf State.reset.mem = true ∧ State.reset.map.sound = true ∧ State.reset.flash.sound = true ∧
    State.reset.portsSound = true ∧ State.reset.startUpSound ∧ State.reset.logFaultsSound = true ∧
    State.reset.log.sound = true ∧ State.reset.commit.sound = true

/-- The flash contents keep their canonical form. -/
def Obligations.FlashContentsStayCanonical : Prop :=
  ∀ s t : State, Memory.wf s.mem = true → step s = .next t → Memory.wf t.mem = true

/-- R1, R3 to R7, Table 1.1: the map keeps exactly 255 entries; outside OPEN, FILLING and READY an entry has an empty fresh
mask and damaged no. -/
def Obligations.MapStaysSound : Prop :=
  ∀ s t : State, s.map.sound = true → step s = .next t → t.map.sound = true

/-- R130, R133, R136, R137: at most one physical operation runs at a time, at most one erase is suspended, no program is in
flight with an erase in progress, no erase is suspended more than 32 times, and a slot is GRANTED exactly while its access
is in flight or in progress. -/
def Obligations.FlashPortStaysSound : Prop :=
  ∀ s t : State, s.flash.sound = true → step s = .next t → t.flash.sound = true

/-- R14, R147, Tables 9.1, 9.2: each port has a transfer exactly in TRANSFER and one request in flight exactly in OP_BUSY,
and the pinned-transfer count is the number of pinned transfers, 0 to 2. -/
def Obligations.PortsStaySound : Prop :=
  ∀ s t : State, s.portsSound = true → step s = .next t → t.portsSound = true ∧ t.map.pinned ≤ 2

/-- R114 to R125: the work of each start-up phase is done in that phase, one work at a time, and both ports are held with no
transfer until SERVING. -/
def Obligations.StartUpStaysSound : Prop :=
  ∀ s t : State, s.startUpSound → step s = .next t → t.startUpSound

/-- Section 10.1, R97: LOG_FAULT and LOG_CORRUPT stand exactly as long as the Log Unit is FAULTED or CORRUPT. -/
def Obligations.LogFaultsMatchTheLockState : Prop :=
  ∀ s t : State, s.logFaultsSound = true → step s = .next t → t.logFaultsSound = true

/-- Tables 4.1, 5.2, R61, R84, R86, R93: the append position stays from 2 to 512 and a record is written below 512 only; in
FILL the cursor stays at a mapped segment and one of its 16 sectors, at one of 16 pages. -/
def Obligations.LogPositionAndFillCursorStayInRange : Prop :=
  ∀ s t : State, step s = .next t →
    (s.log.sound = true → t.log.sound = true) ∧ (s.commit.sound = true → t.commit.sound = true)

/-- R12, R77: every program and erase that a command places lies wholly in a shadow, for a host port or the update machinery,
or wholly in a map area, for the Log Unit: never in an active copy. In a shadow a block erase begins at its offset 0, a sector
erase at a multiple of 0x1000, and a program stays inside its page. -/
def Obligations.WritesNeverGoToAnActiveCopy : Prop :=
  ∀ (c : Instr) (s t : State), s.portsSound = true → s.commit.sound = true → s.log.sound = true →
    (∀ x n, s.flash.readInFlight .work = some (x, n) → n ≤ 256) → exec c s = .next t →
      ∀ (client : Client) (a : Access), t.flash.slot client = .pending a → a.isRead = false →
        s.flash.slot client ≠ .pending a →
          (client ≠ .log ∧ ∃ seg off, seg < 255 ∧ a.addr = physAddr (t.entry seg).bank.other seg off ∧
            off + a.length ≤ 0x10000 ∧ (∀ x, a = .blockErase x → off = 0) ∧ (∀ x, a = .sectorErase x → off % 0x1000 = 0) ∧
            (∀ x data, a = .program x data → off % 0x100 + data.length ≤ 0x100)) ∨
          (client = .log ∧ ∃ area : Area, areaBase area ≤ a.addr ∧ a.addr + a.length ≤ areaBase area + 0x10000)

/-- R13, R69, R99, R106, R113: the epoch increases by one at a switch and by no other amount but to 0 at a part reset. Outside
replay and initialisation no active bank and no active serial changes without it; IMAGE_OK changes at SERVING, at a part
reset and at a switch only, and in service a switch leaves it high. -/
def Obligations.ImageChangesOnlyAtSwitches : Prop :=
  ∀ (c : Instr) (s t : State), c ≠ .partReset → exec c s = .next t →
    (t.map.epoch = s.map.epoch ∨ t.map.epoch = s.map.epoch + 1) ∧
    (s.log.replay = none → s.log.initStep = none → t.map.epoch = s.map.epoch →
      t.banks = s.banks ∧ t.image.serial = s.image.serial) ∧
    ((∀ release, c ≠ .serving release) → t.map.epoch = s.map.epoch → t.image.imageOk = s.image.imageOk) ∧
    (s.seq.phase = .serving → t.map.epoch ≠ s.map.epoch → t.image.imageOk = true)

/-- R97, R115, R125, R160, R161: what lasts until a part reset: SERVING, a Log Unit that is FAULTED or CORRUPT, the latched
straps, and FLASH_TIMEOUT, LOG_FAULT and LOG_CORRUPT in the fault set; NO_VALID_IMAGE and TRIAL_EXPIRED last until a switch. -/
def Obligations.WhatLastsUntilPartReset : Prop :=
  ∀ (c : Instr) (s t : State), c ≠ .partReset → exec c s = .next t →
    (s.startUpSound → s.seq.phase = .serving → t.seq.phase = .serving) ∧
    (s.log.lock ≠ .ok → t.log.lock = s.log.lock) ∧
    ((∀ pins, c ≠ .partResetEnd pins) → t.seq.straps = s.seq.straps) ∧
    (s.faults.flashTimeout = true → t.faults.flashTimeout = true) ∧
    (s.faults.logFault = true → t.faults.logFault = true) ∧
    (s.faults.logCorrupt = true → t.faults.logCorrupt = true) ∧
    (t.map.epoch = s.map.epoch → s.faults.noValidImage = true → t.faults.noValidImage = true) ∧
    (t.map.epoch = s.map.epoch → s.faults.trialExpired = true → t.faults.trialExpired = true)

/-- R9, R160, R168: whatever the host of one port sends, the other port, the flash contents, the fault set, the epoch, the
active banks, the active serial, the start-up, the check and the commit are left as they were. -/
def Obligations.HostRequestsLeaveTheOtherPortAlone : Prop :=
  ∀ (c : Instr) (p : Port) (s t : State), requestPort c = some p → exec c s = .next t →
    t.port (otherPort p) = s.port (otherPort p) ∧ t.mem = s.mem ∧ t.faults = s.faults ∧ t.map.epoch = s.map.epoch ∧
      t.map.switch = s.map.switch ∧ t.banks = s.banks ∧ t.image.serial = s.image.serial ∧
      t.image.imageOk = s.image.imageOk ∧ t.seq = s.seq ∧ t.check = s.check ∧ t.reader = s.reader ∧
      t.commit = s.commit ∧ t.flash.transfer = s.flash.transfer ∧ t.flash.pointer = s.flash.pointer ∧
      t.flash.slotLog = s.flash.slotLog ∧ t.flash.slotWork = s.flash.slotWork

/-- R128 and the model's own (log entry 9): every command answers a next state with the queue as it was, except that a grant
of an access outside the physical flash stops with a fault. -/
def Obligations.EveryCommandAnswers : Prop :=
  ∀ (c : Instr) (s : State),
    (∃ t : State, exec c s = .next t ∧ t.pending = s.pending) ∨
    (exec c s = .fault .outsideFlash ∧ (c = .accessGrant ∨ c = .eraseSuspended) ∧
      ∃ (client : Client) (a : Access), s.flash.slot client = .pending a ∧ 0x2000000 < a.addr + a.length)

/-! ### Start-up commands -/

/-- R2, R19, R48, R55, R80, R98, R114, R129, R145, R160, R162: PART_RESET gives every block its part-reset values, drives the
lines low, and leaves the flash contents and the queue as they are. That an entry then keeps no sectors to open is read
from R2 (log entry 6). -/
def Obligations.PartResetGivesThePartResetValues : Prop :=
  ∀ s : State, ∃ t : State, exec .partReset s = .next t ∧
    t.map.entries = List.replicate 255 { bank := .a, phase := .stable, fresh := 0, damaged := false, toOpen := 0 } ∧
    t.map.epoch = 0 ∧ t.map.pinned = 0 ∧ t.map.switch = none ∧
    t.session =
      { lock := .free, state := .nobody, owner := none, openCount := 0, openLogged := false, timer := .stopped,
        endReason := none } ∧
    t.commit.stage = .idle ∧ t.commit.cursor = none ∧ t.commit.buffer = none ∧ t.commit.summary = none ∧
    t.commit.newBitmap = none ∧ t.commit.verdict = none ∧
    t.check.running = false ∧ t.check.client = none ∧ t.check.count = 0 ∧ t.check.crc = 0xFFFFFFFF ∧ t.reader = none ∧
    t.log =
      { lock := .ok, area := none, generation := none, position := 512, nextSeq := 1,
        summary :=
          { bitmap := 0, serial := 0, state := .virgin, count := 0, limit := 0, targetValid := false, targetBitmap := 0,
            targetSerial := 0 },
        queue := [], append := none, initStep := none, replay := none } ∧
    t.image =
      { serial := 0, state := .virgin, count := 0, limit := 0, targetValid := false, targetBitmap := 0, targetSerial := 0,
        imageOk := false, acceptance := none, rollback := none } ∧
    t.seq.inReset = true ∧ t.seq.phase = .flashWait ∧ t.seq.scanResult = none ∧ t.seq.checkPass = .none ∧
    t.seq.checkResult = .notRun ∧
    (∀ c : Client, t.flash.slot c = .empty) ∧ t.flash.pointer = .work ∧ t.flash.transfer = none ∧ t.flash.erase = none ∧
    t.flash.resetting = false ∧
    (∀ p : Port,
      (t.port p).state = .held ∧ (t.port p).wel = false ∧ (t.port p).refused = false ∧ (t.port p).progFail = false ∧
      (t.port p).eraseFail = false ∧ (t.port p).code = .success ∧ (t.port p).seg = 0xFF ∧ (t.port p).transfer = none ∧
      (t.port p).inFlight = none ∧ (t.port p).held = []) ∧
    t.faults = FaultSet.empty ∧ t.lineFault = false ∧ t.lineUpdating = false ∧ t.lineImageOk = false ∧
    t.mem = s.mem ∧ t.pending = s.pending

/-- R114, R115, R172, Table 12.10: PART_RESET_END latches the straps, an open pin as 0, and the poll of the flash begins.
R117, R143: FLASH_READY below 8 s issues the flash reset; FLASH_WAIT_TIMEOUT at 8 s issues it and raises FLASH_TIMEOUT, and
below 8 s changes nothing; when it has completed SCAN is entered, with the flash holding what was left of an operation from
before the part reset. The model's choices and inferences: what is left appears at the end of that flash reset, with every byte
of the range open (log entries 4 and 10), SCAN is entered then after either command (log entry 23), and the wait is counted in
ms, with no effect of either command on the other's side of 8 s (log entry 16). -/
def Obligations.FlashWaitLatchesTheStrapsAndEndsInScan : Prop :=
  (∀ (pins : StrapPins) (s : State), s.seq.inReset = true →
    exec (.partResetEnd pins) s =
      .next { s with seq := { s.seq with inReset := false, straps := latchStraps pins, wait := .polling 0 } }) ∧
  (∀ pins : StrapPins,
    updEnabled (latchStraps pins).updSel .hp0 = decide (pins.updSel0 = .high) ∧
    updEnabled (latchStraps pins).updSel .hp1 = decide (pins.updSel1 = .high) ∧
    (latchStraps pins).chkEn = decide (pins.chkEn = .high) ∧
    (latchStraps pins).trialLim.val =
      2 * (decide (pins.trialLim1 = .high)).toNat + (decide (pins.trialLim0 = .high)).toNat ∧
    idleLimitMs (latchStraps pins).idleLim =
      if pins.idleLim1 = .high then (if pins.idleLim0 = .high then none else some 300000)
      else if pins.idleLim0 = .high then some 60000 else some 10000) ∧
  (∀ (s : State) (ms : Nat), s.seq.wait = .polling ms →
    (ms < 8000 →
      exec .flashReady s = .next { s with seq := { s.seq with wait := .resetting } } ∧
      exec .flashWaitTimeout s = .next s) ∧
    (8000 ≤ ms →
      exec .flashReady s = .next s ∧
      exec .flashWaitTimeout s =
        .next { s with seq := { s.seq with wait := .resetting }, faults := { s.faults with flashTimeout := true } })) ∧
  (∀ (s : State) (left : Remains), s.seq.wait = .resetting →
    ∃ m : List Host.Cell,
      exec (.startUpFlashResetComplete left) s =
        .next { s with mem := m, leftover := none, seq := { s.seq with wait := .none, phase := .scan, work := .notBegun } } ∧
      (s.leftover = none → m = s.mem) ∧
      (∀ a n, s.leftover = some (.erase a n) → m = memErase s.mem a n left) ∧
      (∀ a data, s.leftover = some (.program a data) → m = memProgram s.mem a data left))

/-- R118, R91, R119, R95: SCAN places the read of position 0 of area 0, and INIT the block erase of area 0, in the LOG slot.
That replay reads one position at a time, from position 0 of area 0, is the model's choice (log entry 12). -/
def Obligations.ScanAndInitPlaceTheirFirstAccess : Prop :=
  ∀ s : State, s.seq.work = .notBegun → s.flash.slotLog = .empty → s.flash.erase = none →
    (s.seq.phase = .scan →
      exec .scan s =
        .next { s with
                seq := { s.seq with work := .running }
                log := { s.log with replay := some (.heads []) }
                flash := { s.flash with slotLog := .pending (.read 0x0FF0000 128) } }) ∧
    (s.seq.phase = .init →
      exec .init s =
        .next { s with
                seq := { s.seq with work := .running }
                log := { s.log with initStep := some .erase }
                flash := { s.flash with slotLog := .pending (.blockErase 0x0FF0000) } })

/-- R91: the positions 0 and 1 of area 0 and then of area 1 are read; an area is usable when its header is valid and its
position 1 holds a BASE, the one usable area is taken, of two the one with the greater generation, of equal ones that whose
BASE has the greater sequence number, and area 0 when those are equal too; replay goes on at position 2 from that BASE. R92 to
R94, R118: a read of replay below position 511 is followed by the read of the next position; with the last one the recovered
state is handed over and TRIAL_STEP is entered. R95, R96: with neither area usable the log is blank or corrupt: INIT is
entered, or the Log Unit becomes CORRUPT with LOG_CORRUPT raised and TRIAL_STEP is entered; the flash stays. That replay reads
one position at a time, up to position 511, is the model's choice (log entry 12). -/
def Obligations.ReplayReadsOnAndHandsOver : Prop :=
  (∀ (s : State) (w w1 : ReplayWalk) (a n : Nat), s.log.replay = some (.walk w) →
    s.flash.readInFlight .log = some (a, n) → s.flash.erase = none → walkPosition w (memReadBytes s.mem a n) = w1 →
      (w1.position < 512 →
        exec .replayReadComplete s =
          .next { s with
                  log := { s.log with replay := some (.walk w1) }
                  flash :=
                    { s.flash with
                      transfer := none
                      slotLog := .pending (.read (areaBase w1.area + w1.position * 128) 128) } }) ∧
      (w1.position = 512 →
        ∃ t : State, exec .replayReadComplete s = .next t ∧
          (∀ seg < 255, s.map.entries.length = 255 →
            t.entry seg = { s.entry seg with bank := if w1.summary.bitmap.getLsbD seg then .b else .a }) ∧
          t =
            { s with
              map := { s.map with entries := t.map.entries }
              log :=
                { s.log with
                  area := some w1.area
                  generation := some w1.generation
                  position := w1.miss.getD 512
                  nextSeq := w1.last + 1
                  summary := w1.summary
                  append := none
                  replay := none }
              image :=
                { s.image with
                  serial := w1.summary.serial
                  state :=
                    match w1.summary.state with
                    | .virgin => .virgin
                    | .confirmed => .confirmed
                    | .trial => .trial
                  count := w1.summary.count
                  limit := w1.summary.limit
                  targetValid := w1.summary.targetValid
                  targetBitmap := w1.summary.targetBitmap
                  targetSerial := w1.summary.targetSerial }
              seq := { s.seq with phase := .trialStep, work := .notBegun, scanResult := some .replayed }
              flash := { s.flash with transfer := none, slotLog := .empty } })) ∧
  (∀ (s : State) (read : List (List Byte)) (a n : Nat), s.log.replay = some (.heads read) →
    s.flash.readInFlight .log = some (a, n) → s.flash.erase = none → read.length < 3 →
      exec .replayReadComplete s =
        .next { s with
                log := { s.log with replay := some (.heads (read ++ [memReadBytes s.mem a n])) }
                flash :=
                  { s.flash with
                    transfer := none
                    slotLog := .pending (.read ([0x0FF0080, 0x1FF0000, 0x1FF0080].getD read.length 0) 128) } }) ∧
  (∀ (header base : List Byte) (generation seq : Word32) (summary : LogSummary),
    usableArea header base = some (generation, seq, summary) ↔
      areaGeneration header = some generation ∧ validRecord base = some (seq, .base summary)) ∧
  (∀ (s : State) (h0 b0 h1 b1 : List Byte) (a n : Nat), s.log.replay = some (.heads [h0, b0, h1]) →
    s.flash.readInFlight .log = some (a, n) → s.flash.erase = none → memReadBytes s.mem a n = b1 →
      let walks : Area → Word32 × Word32 × LogSummary → Prop := fun area usable =>
        exec .replayReadComplete s =
          .next { s with
                  log :=
                    { s.log with
                      replay :=
                        some
                          (.walk
                            { area := area, generation := usable.1, position := 2, last := usable.2.1,
                              summary := usable.2.2, miss := none }) }
                  flash :=
                    { s.flash with transfer := none, slotLog := .pending (.read (areaBase area + 0x100) 128) } }
      (∀ u, usableArea h0 b0 = some u → usableArea h1 b1 = none → walks .zero u) ∧
      (∀ u, usableArea h0 b0 = none → usableArea h1 b1 = some u → walks .one u) ∧
      (∀ g0 n0 m0 g1 n1 m1, usableArea h0 b0 = some (g0, n0, m0) → usableArea h1 b1 = some (g1, n1, m1) →
        (g1.toNat < g0.toNat → walks .zero (g0, n0, m0)) ∧
        (g0.toNat < g1.toNat → walks .one (g1, n1, m1)) ∧
        (g0 = g1 → n1.toNat ≤ n0.toNat → walks .zero (g0, n0, m0)) ∧
        (g0 = g1 → n0.toNat < n1.toNat → walks .one (g1, n1, m1)))) ∧
  (∀ (s : State) (h0 b0 h1 b1 : List Byte) (a n : Nat), s.log.replay = some (.heads [h0, b0, h1]) →
    s.flash.readInFlight .log = some (a, n) → s.flash.erase = none → memReadBytes s.mem a n = b1 → s.log.lock = .ok →
    usableArea h0 b0 = none → usableArea h1 b1 = none →
      let blank : Prop :=
        (erasedBytes h1 = true ∧ erasedBytes b1 = true) ∧
          (erasedBytes h0 = true ∨ areaGeneration h0 = some 1 ∨ (erasedBytes h0 = false ∧ areaGeneration h0 = none)) ∧
          (erasedBytes b0 = true ∨ (erasedBytes b0 = false ∧ validRecord b0 = none))
      ∃ t : State, exec .replayReadComplete s = .next t ∧ t.mem = s.mem ∧ t.image.serial = 0 ∧ t.image.state = .virgin ∧
        t.image.targetValid = false ∧
        (blank →
          t.seq = { s.seq with phase := .init, work := .notBegun, scanResult := some .blank } ∧ t.log.lock = .ok ∧
            t.faults = s.faults) ∧
        (¬blank →
          t.seq = { s.seq with phase := .trialStep, work := .notBegun, scanResult := some .corrupt } ∧
            t.log.lock = .corrupt ∧ t.faults = { s.faults with logCorrupt := true }))

/-- R109 to R111, R120: the trial step. A count below the limit asks for a TRIAL record of one more; at the limit a rollback
to a valid target is asked for, or TRIAL_EXPIRED raised; in any other image state the step ends at once. (A count above the
limit, of which the rules do not speak, is the model's choice: log entry 15.) -/
def Obligations.TrialStepCountsOrExpires : Prop :=
  ∀ s : State, s.seq.phase = .trialStep → s.seq.work = .notBegun →
    (s.image.state ≠ .trial → exec .trialStep s = .next { s with seq := { s.seq with phase := .check } }) ∧
    (s.image.state = .trial → s.image.count < s.image.limit →
      exec .trialStep s =
        .next { s with
                seq := { s.seq with work := .running }
                log := { s.log with queue := s.log.queue ++ [.trial (s.image.count + 1)] } }) ∧
    (s.image.state = .trial → s.image.count = s.image.limit → s.image.targetValid = true →
      exec .trialStep s =
        .next { s with
                seq := { s.seq with work := .running }
                image := { s.image with rollback := some (.sequencer, .trialExpired) }
                log :=
                  { s.log with
                    queue := s.log.queue ++ [.rollback s.image.targetBitmap s.image.targetSerial .trialExpired] } }) ∧
    (s.image.state = .trial → s.image.count = s.image.limit → s.image.targetValid = false →
      exec .trialStep s =
        .next { s with
                seq := { s.seq with phase := .check }
                faults := { s.faults with trialExpired := true } })

/-- R121, R45, R50: with CHK_EN on and an image CONFIRMED or TRIAL the first check begins with the header range of the active
copy of segment 0; else none is made. -/
def Obligations.CheckBeginsWithTheHeader : Prop :=
  ∀ s : State, s.seq.phase = .check → s.seq.work = .notBegun →
    (s.seq.straps.chkEn = false ∨ s.image.state = .virgin →
      exec .check s = .next { s with seq := { s.seq with work := .ended } }) ∧
    (s.seq.straps.chkEn = true → s.image.state ≠ .virgin → s.flash.slotWork = .empty → s.flash.erase = none →
      exec .check s =
        .next { s with
                seq := { s.seq with work := .running, checkPass := .first }
                check :=
                  { running := true, client := some .sequencer, kind := some .header, length := 2056, count := 0,
                    crc := 0xFFFFFFFF }
                reader := some { client := .sequencer, work := .header HeaderCapture.empty }
                flash := { s.flash with slotWork := .pending (.read (physAddr (s.entry 0).bank 0 0) 256) } })

/-- R125, R126: SERVING releases both ports, sets IMAGE_OK from the start-up result, and takes a held request as if it had
arrived at that moment. R144: what its host clocked under wait counts for nothing; the number of bytes it clocks out from then
on is given with the command (log entry 14). -/
def Obligations.ServingReleasesThePorts : Prop :=
  ∀ (s : State) (x : Release) (p : Port), s.seq.phase = .check → s.seq.work = .ended → s.hp0.state = .held → s.hp1.state = .held →
    (s.port (otherPort p)).held = [] →
      let served : State :=
        { s with
          seq := { s.seq with phase := .serving }
          image :=
            { s.image with
              imageOk :=
                decide (s.image.state ≠ .virgin ∧ s.faults.trialExpired = false ∧
                  (s.seq.straps.chkEn = false ∨ s.seq.checkResult = .passed)) }
          hp0 := { s.hp0 with state := .ready, held := [] }
          hp1 := { s.hp1 with state := .ready, held := [] } }
      ((s.port p).held = [] → exec (.serving x) s = .next served) ∧
      (∀ r : HostRequest, (s.port p).held = [r] →
        exec (.serving x) s =
          exec
            (requestCommand p
              (withClocks
                (match p with
                  | .hp0 => x.hp0Clocks
                  | .hp1 => x.hp1Clocks)
                r))
            served)

/-! ### Reads of the hosts -/

/-- R8 to R10, R14, R16, R132, R150: an ARRAY READ in READY enters TRANSFER. Its first chunk is translated under the view of
the port, pins the epoch, and its READ to the end of the page is placed; in segment 255 it is 0xFF bytes without an access;
while a switch is pending it is held and pins nothing. R137, R140: a READ that becomes pending while an erase is RUNNING makes
it SUSPENDING when its suspend count is below 32; with the count at 32, or in any other condition, the erase stays. -/
def Obligations.ArrayReadFormsItsFirstChunk : Prop :=
  ∀ (p : Port) (a : LogicalAddr) (clocks : Nat) (s : State), (s.port p).state = .ready →
    let rule : ViewRule := if s.session.owner = some p then .owner else .stable
    let entered : HostTransfer → HostPort := fun t =>
      { s.port p with state := .transfer, transfer := some t, dataOut := List.replicate clocks 0xFF }
    (s.map.switch = none → segOf a < 255 → s.flash.slot (portClient p) = .empty →
      exec (.arrayRead p a clocks) s =
        .next (State.setPort
          { s with
            map := { s.map with pinned := s.map.pinned + 1 }
            flash :=
              { s.flash.setSlot (portClient p)
                (.pending
                  (.read
                    (translate (if s.session.state = .active ∧ s.session.owner = some p then .update else .stable)
                      s.map.entries (segOf a) (offsetOf a))
                    (256 - a.toNat % 256))) with
                erase :=
                  s.flash.erase.map (fun (e : FlashErase) =>
                    if e.condition = .running ∧ e.suspends < 32 then { e with condition := .suspending } else e) } }
          p (entered { next := a, rule := rule, epoch := some s.map.epoch, buffer := [], arrived := 0, ended := false }))) ∧
    (s.map.switch = none → segOf a = 255 →
      exec (.arrayRead p a clocks) s =
        .next (State.setPort { s with map := { s.map with pinned := s.map.pinned + 1 } } p
          (entered
            { next := a + BitVec.ofNat 24 (min clocks (256 - a.toNat % 256))
              rule := rule
              epoch := some s.map.epoch
              buffer := List.replicate (256 - a.toNat % 256 - clocks) 0xFF
              arrived := 0
              ended := false }))) ∧
    (s.map.switch ≠ none →
      exec (.arrayRead p a clocks) s =
        .next (s.setPort p (entered { next := a, rule := rule, epoch := none, buffer := [], arrived := 0, ended := false })))

/-- R132, R134, R144, R150, R151: as the host clocks, bytes of the buffer are delivered and the address advances; with no more
than 256 bytes left and no READ of the port waiting the next chunk is formed, to the end of its page, or 0xFF bytes in segment
255. R137, R140: the READ that becomes pending makes an erase that is RUNNING, with a suspend count below 32, SUSPENDING; with
the count at 32, or in any other condition, the erase stays. While the READ of a chunk is in flight its bytes pass to the
buffer in increasing address order as they begin to arrive, and are delivered; what the host clocks beyond them reads 0xFF
under wait. The model's choice is that the command gives how many arrive, the last byte coming with the completion (log entry
34). The rest of the bytes of a completed READ pass to the buffer; for an ended transfer they are discarded, the port is
READY, and it takes a held request, whose host clocks out as many bytes from then on as the command gives (log entry 14). -/
def Obligations.ChunksFollowTheBuffer : Prop :=
  ∀ (p : Port) (s : State) (t : HostTransfer), (s.port p).transfer = some t →
    (∀ (arrived clocks : Nat) (epoch : Word32), t.ended = false → t.epoch = some epoch →
      s.flash.slot (portClient p) = .empty → s.flash.readInFlight (portClient p) = none → t.buffer.length ≤ 256 + clocks →
        let rest := t.buffer.drop clocks
        let next := t.next + BitVec.ofNat 24 (min clocks t.buffer.length)
        let chunk := next + BitVec.ofNat 24 rest.length
        (segOf chunk < 255 →
          exec (.nextChunk p { arrived := arrived, clocks := clocks }) s =
            .next (State.setPort
              (s.setFlash
                { s.flash.setSlot (portClient p)
                  (.pending
                    (.read
                      (translate
                        (if t.rule = .owner ∧ s.session.state = .active ∧ s.session.owner = some p then .update else .stable)
                        s.map.entries (segOf chunk) (offsetOf chunk))
                      (256 - chunk.toNat % 256))) with
                  erase :=
                    s.flash.erase.map (fun (e : FlashErase) =>
                      if e.condition = .running ∧ e.suspends < 32 then { e with condition := .suspending } else e) })
              p
              { s.port p with
                dataOut := clockedOut t.buffer clocks
                transfer := some { t with next := next, buffer := rest } })) ∧
        (segOf chunk = 255 →
          exec (.nextChunk p { arrived := arrived, clocks := clocks }) s =
            .next (s.setPort p
              { s.port p with
                dataOut := clockedOut t.buffer clocks
                transfer :=
                  some { t with next := next, buffer := rest ++ List.replicate (256 - chunk.toNat % 256) 0xFF } }))) ∧
    (∀ a n : Nat, s.flash.erase = none → s.flash.readInFlight (portClient p) = some (a, n) →
      let ended : State := s.setFlash { s.flash.setSlot (portClient p) .empty with transfer := none }
      let unread : List Byte := (memReadBytes s.mem a n).drop t.arrived
      (t.ended = false → s.flash.slot (portClient p) ≠ .empty → ∀ arrived clocks : Nat,
        let come := min arrived (n - 1 - t.arrived)
        let held := t.buffer ++ unread.take come
        let filled : HostTransfer :=
          { t with
            next := t.next + BitVec.ofNat 24 (min clocks held.length)
            buffer := held.drop clocks
            arrived := t.arrived + come }
        exec (.nextChunk p { arrived := arrived, clocks := clocks }) s =
          .next (s.setPort p { s.port p with dataOut := clockedOut held clocks, transfer := some filled })) ∧
      (t.ended = false →
        ∀ clocks, exec (.hostChunkReadComplete p { nextFirst := false, clocks := clocks }) s =
          .next (ended.setPort p
            { s.port p with transfer := some { t with buffer := t.buffer ++ unread, arrived := 0 } })) ∧
      (t.ended = true → (s.port p).held = [] → ∀ (nextFirst : Bool) (clocks : Nat),
        exec (.hostChunkReadComplete p { nextFirst := nextFirst, clocks := clocks }) s =
          .next (ended.setPort p { s.port p with transfer := none, state := .ready })) ∧
      (∀ r : HostRequest, t.ended = true → (s.port p).held = [r] → ∀ clocks,
        exec (.hostChunkReadComplete p { nextFirst := false, clocks := clocks }) s =
          exec (requestCommand p (withClocks clocks r))
            (ended.setPort p { s.port p with transfer := none, state := .ready, held := [] })))

/-- R137 to R139: the READ of a host chunk completes while an erase is SUSPENDED. With no READ pending the erase is resumed;
with the READ of another client pending it stays SUSPENDED. When the next chunk of the port is taken before the completion,
its READ is pending and the erase stays SUSPENDED within the same suspension. -/
def Obligations.ReadsHoldTheSuspension : Prop :=
  ∀ (p : Port) (s : State) (t : HostTransfer) (e : FlashErase) (a n : Nat), (s.port p).transfer = some t → t.ended = false →
    s.flash.erase = some e → e.condition = .suspended → s.flash.readInFlight (portClient p) = some (a, n) →
    (a + n ≤ e.addr ∨ e.addr + e.kind.length ≤ a) → ∀ clocks : Nat,
      let unread : List Byte := (memReadBytes s.mem a n).drop t.arrived
      let chunk := t.next + BitVec.ofNat 24 (t.buffer.length + (n - t.arrived))
      let filled : HostPort := { s.port p with transfer := some { t with buffer := t.buffer ++ unread, arrived := 0 } }
      let ended : FlashPort := { s.flash.setSlot (portClient p) .empty with transfer := none }
      ((∀ (c : Client) (addr length : Nat), s.flash.slot c ≠ .pending (.read addr length)) →
        exec (.hostChunkReadComplete p { nextFirst := false, clocks := clocks }) s =
          .next (State.setPort (s.setFlash { ended with erase := some { e with condition := .running } }) p filled)) ∧
      ((∃ (c : Client) (addr length : Nat), c ≠ portClient p ∧ s.flash.slot c = .pending (.read addr length)) →
        exec (.hostChunkReadComplete p { nextFirst := false, clocks := clocks }) s = .next (State.setPort (s.setFlash ended) p filled)) ∧
      (t.epoch.isSome = true → t.buffer.length + (n - t.arrived) ≤ 256 → segOf chunk < 255 →
        exec (.hostChunkReadComplete p { nextFirst := true, clocks := clocks }) s =
          .next (State.setPort
            (s.setFlash
              (ended.setSlot (portClient p)
                (.pending
                  (.read
                    (translate
                      (if t.rule = .owner ∧ s.session.state = .active ∧ s.session.owner = some p then .update else .stable)
                      s.map.entries (segOf chunk) (offsetOf chunk))
                    (256 - chunk.toNat % 256)))))
            p filled))

/-- R14, R16, R151: the end of a transfer whose first chunk a pending switch holds leaves the count, and the switch, as they
were: the transfer is forgotten and the port becomes READY. R14, R130, R151: at the end of a pinned transfer the count falls
by one and the port becomes READY; a READ still pending is withdrawn, and with one GRANTED the port stays in TRANSFER until it
completes. What the host clocked out before the end is delivered from the buffer and from the bytes of the READ in flight that
have arrived, as many as the command gives (log entry 34). -/
def Obligations.TransferEndUnpinsTheEpoch : Prop :=
  ∀ (p : Port) (arrived clocks : Nat) (s : State) (t : HostTransfer), (s.port p).transfer = some t → t.ended = false →
    (t.epoch = none → s.flash.slot (portClient p) = .empty → s.flash.readInFlight (portClient p) = none →
      exec (.transferEnd p { arrived := arrived, clocks := clocks }) s =
        .next (s.setPort p
          { s.port p with state := .ready, transfer := none, dataOut := clockedOut t.buffer clocks })) ∧
    (∀ epoch : Word32, t.epoch = some epoch → s.flash.erase = none →
      let unpinned : SegmentMap := { s.map with pinned := s.map.pinned - 1 }
      (s.flash.readInFlight (portClient p) = none →
        s.flash.slot (portClient p) = .empty ∨ (∃ a n, s.flash.slot (portClient p) = .pending (.read a n)) →
        exec (.transferEnd p { arrived := arrived, clocks := clocks }) s =
          .next (State.setPort { s with map := unpinned, flash := s.flash.setSlot (portClient p) .empty } p
            { s.port p with state := .ready, transfer := none, dataOut := clockedOut t.buffer clocks })) ∧
      (∀ a n, s.flash.slot (portClient p) = .granted (.read a n) → s.flash.readInFlight (portClient p) = some (a, n) →
        let come := min arrived (n - 1 - t.arrived)
        let held := t.buffer ++ ((memReadBytes s.mem a n).drop t.arrived).take come
        exec (.transferEnd p { arrived := arrived, clocks := clocks }) s =
          .next (State.setPort { s with map := unpinned } p
            { s.port p with
              transfer :=
                some
                  { t with
                    next := t.next + BitVec.ofNat 24 (min clocks held.length), epoch := none, buffer := [],
                    arrived := t.arrived + come, ended := true }
              dataOut := clockedOut held clocks })))

/-! ### Erases, programs and control words -/

/-- R148, R149: the port-level checks on erases and programs in READY, in their order. Without WEL a request is ignored, as
is a program without a data byte, which clears WEL; one that fails a check is refused with REFUSED set, WEL cleared and
nothing passed on. -/
def Obligations.PortLevelChecksRefuse : Prop :=
  ∀ (p : Port) (a : LogicalAddr) (data : List Byte) (s : State), (s.port p).state = .ready →
    ((s.port p).wel = false →
      exec (.sectorErase p a) s = .next s ∧ exec (.segmentErase p a) s = .next s ∧
        exec (.pageProgram p a data) s = .next s) ∧
    exec (.pageProgram p a []) s = .next (s.setPort p { s.port p with wel := false }) ∧
    ((s.port p).wel = true →
      let refused : Code → BitVec 8 → State := fun code seg =>
        s.setPort p { s.port p with wel := false, refused := true, code := code, seg := seg }
      (segOf a = 255 →
        exec (.sectorErase p a) s = .next (refused .outOfRange 0xFF) ∧
        exec (.segmentErase p a) s = .next (refused .outOfRange 0xFF) ∧
        (data ≠ [] → exec (.pageProgram p a data) s = .next (refused .outOfRange 0xFF))) ∧
      (segOf a < 255 → 256 < a.toNat % 256 + data.length →
        exec (.pageProgram p a data) s = .next (refused .pageCross (BitVec.ofNat 8 (segOf a)))) ∧
      (segOf a < 255 → updEnabled s.seq.straps.updSel p = false →
        exec (.sectorErase p a) s = .next (refused .notUpdatePort (BitVec.ofNat 8 (segOf a))) ∧
        exec (.segmentErase p a) s = .next (refused .notUpdatePort (BitVec.ofNat 8 (segOf a))) ∧
        (data ≠ [] → a.toNat % 256 + data.length ≤ 256 →
          exec (.pageProgram p a data) s = .next (refused .notUpdatePort (BitVec.ofNat 8 (segOf a))))))

/-- R20, R21, R24, R35, R40: an erase from a port that owns no session. With the lock FREE and the Log Unit OK it starts a
session and asks for the OPEN record; else it is refused UPDATES_LOCKED, SESSION_OTHER or ENGINE_BUSY. -/
def Obligations.EraseStartsASessionOrIsRefused : Prop :=
  ∀ (p : Port) (a : LogicalAddr) (s : State), (s.port p).state = .ready → (s.port p).wel = true → segOf a < 255 →
    updEnabled s.seq.straps.updSel p = true → s.session.owner ≠ some p →
      let refused : Code → State := fun code =>
        s.setPort p
          { s.port p with
            wel := false, refused := true, code := code, seg := BitVec.ofNat 8 (segOf a), inFlight := none }
      let started : InFlight → State := fun f =>
        State.setPort
          { s with
            session :=
              { lock := .session, state := .active, owner := some p, openCount := 0, openLogged := false,
                timer := ((idleLimitMs s.seq.straps.idleLim).map IdleTimer.paused).getD .stopped, endReason := none }
            log := { s.log with queue := s.log.queue ++ [.opened] } }
          p { s.port p with wel := false, state := .opBusy, inFlight := some f }
      (s.session.lock = .free → s.log.lock = .ok → (s.entry (segOf a)).phase = .stable →
          exec (.sectorErase p a) s = .next (started (.sectorErase a)) ∧
          exec (.segmentErase p a) s = .next (started (.segmentErase a))) ∧
      (s.session.lock = .free → s.log.lock ≠ .ok →
        exec (.sectorErase p a) s = .next (refused .updatesLocked) ∧
        exec (.segmentErase p a) s = .next (refused .updatesLocked)) ∧
      (s.session.lock = .session →
        exec (.sectorErase p a) s = .next (refused .sessionOther) ∧
        exec (.segmentErase p a) s = .next (refused .sessionOther)) ∧
      (s.session.lock = .rollback →
        exec (.sectorErase p a) s = .next (refused .engineBusy) ∧ exec (.segmentErase p a) s = .next (refused .engineBusy))

/-- R3, R12, R24, R27, R28, R35: an erase by the owner in ACTIVE with the OPEN record logged. A STABLE entry becomes OPENING
with the block erase of its shadow placed; in an OPEN entry a sector joins the fresh mask at once, a fresh sector or the
whole shadow is erased again. -/
def Obligations.OwnerErasesActOnTheShadow : Prop :=
  ∀ (p : Port) (a : LogicalAddr) (s : State), (s.port p).state = .ready → (s.port p).wel = true → segOf a < 255 →
    updEnabled s.seq.straps.updSel p = true → s.session.state = .active → s.session.owner = some p →
    s.session.openLogged = true → s.flash.slot (portClient p) = .empty → s.flash.erase = none →
      let e := s.entry (segOf a)
      let paused := ((idleLimitMs s.seq.straps.idleLim).map IdleTimer.paused).getD .stopped
      let running := ((idleLimitMs s.seq.straps.idleLim).map IdleTimer.running).getD .stopped
      let issued : InFlight → MapEntry → Nat → Access → State := fun f entry openCount access =>
        State.setPort
          (State.setEntry
            { s with
              session := { s.session with timer := paused, openCount := openCount }
              flash := s.flash.setSlot (portClient p) (.pending access) }
            (segOf a) entry)
          p { s.port p with wel := false, state := .opBusy, inFlight := some f }
      let whole : Access := .blockErase (physAddr e.bank.other (segOf a) 0)
      (e.phase = .stable →
        exec (.sectorErase p a) s =
          .next (issued (.sectorErase a)
            { e with phase := .opening, fresh := 0, damaged := false, toOpen := 1#16 <<< sectorOf a }
            (s.session.openCount + 1) whole) ∧
        exec (.segmentErase p a) s =
          .next (issued (.segmentErase a) { e with phase := .opening, fresh := 0, damaged := false, toOpen := 0xFFFF }
            (s.session.openCount + 1) whole)) ∧
      (e.phase = .opened →
        (e.fresh.getLsbD (sectorOf a) = false →
          exec (.sectorErase p a) s =
            .next (State.setPort
              (State.setEntry { s with session := { s.session with timer := running } } (segOf a)
                { e with fresh := e.fresh ||| 1#16 <<< sectorOf a })
              p
              { s.port p with wel := false, inFlight := none, code := .success, seg := BitVec.ofNat 8 (segOf a) })) ∧
        (e.fresh.getLsbD (sectorOf a) = true →
          exec (.sectorErase p a) s =
            .next (issued (.sectorErase a) e s.session.openCount
              (.sectorErase (physAddr e.bank.other (segOf a) (sectorOf a * 0x1000))))) ∧
        exec (.segmentErase p a) s = .next (issued (.segmentErase a) e s.session.openCount whole))

/-- R12, R29, R33, R35: a program by the owner in ACTIVE that is not an ABANDON, START-COMMIT included: into a fresh sector of
an OPEN entry it is placed at the same offset of the shadow; else it is refused SECTOR_NOT_FRESH without flash access.
R22, R101: a program from a port that owns no session and that is no acceptance word, START-COMMIT and ABANDON included,
is refused: SESSION_OTHER while the lock is SESSION, else NO_SESSION. -/
def Obligations.ProgramsNeedAFreshSector : Prop :=
  ∀ (p : Port) (a : LogicalAddr) (data : List Byte) (s : State), (s.port p).state = .ready → (s.port p).wel = true →
    segOf a < 255 → data ≠ [] → a.toNat % 256 + data.length ≤ 256 → updEnabled s.seq.straps.updSel p = true →
      (s.session.state = .active → s.session.owner = some p → s.flash.slot (portClient p) = .empty → s.flash.erase = none →
        let fresh := (s.entry (segOf a)).phase = .opened ∧ (s.entry (segOf a)).fresh.getLsbD (sectorOf a) = true
        let issued : State :=
          State.setPort
            { s with
              session :=
                { s.session with timer := ((idleLimitMs s.seq.straps.idleLim).map IdleTimer.paused).getD .stopped }
              flash :=
                s.flash.setSlot (portClient p)
                  (.pending (.program (physAddr (s.entry (segOf a)).bank.other (segOf a) (offsetOf a)) data)) }
            p { s.port p with wel := false, state := .opBusy, inFlight := some (.program a data) }
        let refused : State :=
          State.setPort
            { s with
              session :=
                { s.session with timer := ((idleLimitMs s.seq.straps.idleLim).map IdleTimer.running).getD .stopped } }
            p
            { s.port p with
              wel := false, inFlight := none, refused := true, code := .sectorNotFresh, seg := BitVec.ofNat 8 (segOf a) }
        (commitWordOf a data ≠ some .abandon →
          (fresh → exec (.pageProgram p a data) s = .next issued) ∧
          (¬fresh → exec (.pageProgram p a data) s = .next refused)) ∧
        (a = 0x000FF0 → data = [0x0F, 0x1E, 0xC3, 0xA5] →
          (fresh → exec (.startCommit p) s = .next issued) ∧ (¬fresh → exec (.startCommit p) s = .next refused))) ∧
      (s.session.owner ≠ some p → acceptanceWordOf a data = none →
        let refused : BitVec 8 → State := fun seg =>
          s.setPort p
            { s.port p with
              wel := false
              refused := true
              code := if s.session.lock = .session then .sessionOther else .noSession
              seg := seg
              inFlight := none }
        exec (.pageProgram p a data) s = .next (refused (BitVec.ofNat 8 (segOf a))) ∧
          exec (.startCommit p) s = .next (refused 0) ∧ exec (.abandon p) s = .next (refused 0))

/-- R32, R36 to R38, R155, R159: an ABANDON, the expiry of the idle timer, and a soft reset of an owner with nothing in flight
end the session in one step: with an open count above 0 every entry in OPEN, FILLING or READY is STABLE again with its bank
unchanged; the owner port receives its outcome with segment 0xFF. R38, R39: a soft reset of an owner with a request in flight
makes the session ENDING with reason OWNER and clears the latches of the port; everything else waits for the operation to
complete. IDLE_TIMER_EXPIRY is the expiry of a timer with no time left, as the ms of the model count it, and before that it
changes nothing: the model's choice (log entry 16). -/
def Obligations.AbandonEndsTheSession : Prop :=
  ∀ (p : Port) (s : State), s.session.state = .active → s.session.owner = some p →
    let ended : HostPort → State := fun q =>
      State.setPort
        { s with
          map :=
            { s.map with
              entries :=
                if 0 < s.session.openCount then
                  s.map.entries.map (fun (e : MapEntry) =>
                    if e.phase = .stable ∨ e.phase = .opening then e
                    else { bank := e.bank, phase := .stable, fresh := 0, damaged := false, toOpen := 0 })
                else s.map.entries }
          session :=
            { lock := .free, state := .nobody, owner := none, openCount := 0, openLogged := false, timer := .stopped,
              endReason := none } }
        p q
    ((s.port p).state = .ready → (s.port p).wel = true → updEnabled s.seq.straps.updSel p = true →
      exec (.abandon p) s =
        .next (ended { s.port p with wel := false, code := .abandonedOwner, seg := 0xFF, inFlight := none })) ∧
    (s.session.timer = .running 0 →
      exec .idleTimerExpiry s = .next (ended { s.port p with code := .abandonedIdle, seg := 0xFF })) ∧
    (s.session.timer ≠ .running 0 → exec .idleTimerExpiry s = .next s) ∧
    ((s.port p).state = .ready → (s.port p).inFlight = none →
      exec (.softReset p) s =
        .next (ended
          { s.port p with
            wel := false, refused := false, progFail := false, eraseFail := false, code := .abandonedOwner, seg := 0xFF })) ∧
    (∀ f, (s.port p).state = .opBusy → (s.port p).inFlight = some f →
      exec (.softReset p) s =
        .next (State.setPort
          { s with session := { s.session with state := .ending, endReason := some .owner, timer := .stopped } }
          p { s.port p with wel := false, refused := false, progFail := false, eraseFail := false }))

/-- R102: an ACCEPT, from a port that owns no session, is decided by the first of the rule's conditions that holds; taken, it
sets the image state to CONFIRMING and asks for a CONFIRM record of the active serial. -/
def Obligations.AcceptIsDecidedInOrder : Prop :=
  ∀ (p : Port) (s : State), (s.port p).state = .ready → (s.port p).wel = true → updEnabled s.seq.straps.updSel p = true →
    s.session.owner ≠ some p →
      let refused : Code → State := fun code =>
        s.setPort p { s.port p with wel := false, refused := true, code := code, seg := 0xFF, inFlight := none }
      exec (.accept p) s =
        .next
          (if s.log.lock ≠ .ok then refused .updatesLocked
          else if s.image.state ≠ .trial then refused .notOnTrial
          else if s.image.acceptance ≠ none then refused .engineBusy
          else
            State.setPort
              { s with
                image := { s.image with state := .confirming, acceptance := some (p, s.image.serial) }
                log := { s.log with queue := s.log.queue ++ [.confirm s.image.serial] } }
              p
              { s.port p with
                wel := false
                state := .opBusy
                inFlight := some (.program 0x000FF4 [0x11, 0x0A, 0xC3, 0x5A]) })

/-- R104: a REVERT, from a port that owns no session, is decided by the first of the rule's conditions that holds; taken, it
claims the lock for the rollback and asks for a ROLLBACK record of the target. -/
def Obligations.RevertIsDecidedInOrder : Prop :=
  ∀ (p : Port) (s : State), (s.port p).state = .ready → (s.port p).wel = true → updEnabled s.seq.straps.updSel p = true →
    s.session.owner ≠ some p →
      let refused : Code → State := fun code =>
        s.setPort p { s.port p with wel := false, refused := true, code := code, seg := 0xFF, inFlight := none }
      exec (.revert p) s =
        .next
          (if s.log.lock ≠ .ok then refused .updatesLocked
          else if s.session.lock ≠ .free then refused .engineBusy
          else if s.image.targetValid = false then refused .noTarget
          else if s.image.state = .confirming ∨ s.image.acceptance ≠ none then refused .engineBusy
          else
            State.setPort
              { s with
                image := { s.image with rollback := some (.port p, .requested) }
                session := { s.session with lock := .rollback }
                log :=
                  { s.log with
                    queue := s.log.queue ++ [.rollback s.image.targetBitmap s.image.targetSerial .requested] } }
              p
              { s.port p with
                wel := false
                state := .opBusy
                inFlight := some (.program 0x000FF4 [0x22, 0x0B, 0xC3, 0x5A]) })

/-! ### The other requests of the hosts -/

/-- R148, R159: WRITE ENABLE sets WEL and clears the sticky bits, WRITE DISABLE clears WEL, a SOFT RESET on a port that owns
no session clears the four latches, and one on the owner in CLOSING or ENDING too (R38, R73), with the commit and the session
as they were. R144, R146, R156, R157, R171: a STATUS READ returns SR1 for every byte, an EXTENDED STATUS READ the nine bytes
and then 0xFF, an unknown code 0xFF for every byte, an incomplete request nothing. Nothing else changes. That every byte of
one STATUS READ is the SR1 of that moment, where R156 forms each byte as it is sent, is the model's choice (log entry 20). -/
def Obligations.LatchAndStatusRequests : Prop :=
  ∀ (p : Port) (clocks : Nat) (s : State),
    ((s.port p).state = .ready →
      exec (.writeEnable p) s =
        .next (s.setPort p { s.port p with wel := true, refused := false, progFail := false, eraseFail := false }) ∧
      exec (.writeDisable p) s = .next (s.setPort p { s.port p with wel := false })) ∧
    ((s.port p).state = .ready ∨ (s.port p).state = .opBusy ∨ (s.port p).state = .commitBusy →
      (s.session.owner ≠ some p ∨ s.session.state = .closing ∨ s.session.state = .ending →
        exec (.softReset p) s =
          .next (s.setPort p { s.port p with wel := false, refused := false, progFail := false, eraseFail := false })) ∧
      exec (.statusRead p clocks) s =
        .next (s.setPort p { s.port p with dataOut := List.replicate clocks (s.port p).sr1 }) ∧
      exec (.extendedStatusRead p clocks) s =
        .next (s.setPort p
          { s.port p with dataOut := (s.extendedStatus p ++ List.replicate (clocks - 9) 0xFF).take clocks }) ∧
      (∀ code, code ∉ commandCodes →
        exec (.unknownCode p code clocks) s =
          .next (s.setPort p { s.port p with dataOut := List.replicate clocks 0xFF }))) ∧
    (∀ sent, incompleteBytes sent = true → exec (.incompleteRequest p sent) s = .next s)

/-- R158: an IDENT READ in READY returns 0xDA, 0x31, 0x18, 0x01 and then 0xFF and changes nothing else; in OP_BUSY and
COMMIT_BUSY it is refused PORT_BUSY, and every byte is 0xFF. -/
def Obligations.IdentReadReturnsTheFixedBytes : Prop :=
  ∀ (p : Port) (clocks : Nat) (s : State),
    ((s.port p).state = .ready →
      exec (.identRead p clocks) s =
        .next (s.setPort p
          { s.port p with
            dataOut := (([0xDA, 0x31, 0x18, 0x01] : List Byte) ++ List.replicate (clocks - 4) 0xFF).take clocks })) ∧
    ((s.port p).state = .opBusy ∨ (s.port p).state = .commitBusy →
      exec (.identRead p clocks) s =
        .next (s.setPort p
          { s.port p with
            refused := true, code := .portBusy, seg := 0xFF, dataOut := List.replicate clocks 0xFF }))

/-- R146, R148, R169: in OP_BUSY and COMMIT_BUSY every erase, program, read and write-enable request is refused PORT_BUSY with
the segment of its address, or 0xFF, and an erase or program clears WEL; that a program without a data byte is refused too,
and not ignored, is the model's choice between R146 and R148 (log entry 33). R124, R144, R151: in HELD a request of any kind
is held in place of one before it, and at the end of a transfer behind the writing requests held before it; its bytes read
0xFF, and nothing else changes. What its host ends is forgotten, at the end of a transfer if it is no writing request. What a
port holds at the end of a transfer, in which order, is read from R151 (log entry 14). -/
def Obligations.BusyAndHeldPortsTakeNoAction : Prop :=
  ∀ (p : Port) (s : State),
    let wireBytes : HostRequest → List Byte := fun r =>
      match heldClocks r with
      | some n => List.replicate n 0xFF
      | none => (s.port p).dataOut
    (∀ (a : LogicalAddr) (data : List Byte) (clocks : Nat), (s.port p).state = .opBusy ∨ (s.port p).state = .commitBusy →
      let refused : Bool → BitVec 8 → HostPort := fun wel seg =>
        { s.port p with wel := wel, refused := true, code := .portBusy, seg := seg }
      exec (.arrayRead p a clocks) s =
        .next (s.setPort p
          { refused (s.port p).wel (BitVec.ofNat 8 (segOf a)) with dataOut := List.replicate clocks 0xFF }) ∧
      exec (.pageProgram p a data) s = .next (s.setPort p (refused false (BitVec.ofNat 8 (segOf a)))) ∧
      exec (.sectorErase p a) s = .next (s.setPort p (refused false (BitVec.ofNat 8 (segOf a)))) ∧
      exec (.segmentErase p a) s = .next (s.setPort p (refused false (BitVec.ofNat 8 (segOf a)))) ∧
      exec (.startCommit p) s = .next (s.setPort p (refused false 0)) ∧
      exec (.abandon p) s = .next (s.setPort p (refused false 0)) ∧
      exec (.accept p) s = .next (s.setPort p (refused false 0)) ∧
      exec (.revert p) s = .next (s.setPort p (refused false 0)) ∧
      exec (.writeEnable p) s = .next (s.setPort p (refused (s.port p).wel 0xFF)) ∧
      exec (.writeDisable p) s = .next (s.setPort p (refused (s.port p).wel 0xFF))) ∧
    ((s.port p).state = .held →
      (∀ r : HostRequest,
        exec (requestCommand p r) s = .next (s.setPort p { s.port p with held := [r], dataOut := wireBytes r })) ∧
      exec (.heldRequestForgotten p) s = .next (s.setPort p { s.port p with held := [] })) ∧
    (∀ t : HostTransfer, (s.port p).state = .transfer → (s.port p).transfer = some t → t.ended = true →
      (∀ r : HostRequest,
        exec (requestCommand p r) s =
          .next (s.setPort p
            { s.port p with held := (s.port p).held.filter keptAtTransferEnd ++ [r], dataOut := wireBytes r })) ∧
      exec (.heldRequestForgotten p) s =
        .next (s.setPort p { s.port p with held := (s.port p).held.filter keptAtTransferEnd }))

/-! ### The Flash Port -/

/-- R133, R137: the arbiter grants the first access the flash condition admits, looking from the client after the pointer: on
an idle flash whatever is pending first, a READ alone during a suspension. A READ or PROGRAM becomes the transfer in flight;
an erase the erase in progress, RUNNING with run time and suspend count 0, or SUSPENDING when a READ is pending. R139: when
the flash reports the erase suspended the suspend count rises by one, and the first pending READ is granted, or the erase
is resumed. R130, R137, R140: a READ that any client places becomes pending, and an erase that is RUNNING with a suspend count
below 32 SUSPENDING; with no READ pending the placing of a PROGRAM or an erase leaves it RUNNING. -/
def Obligations.ArbiterGrantsInRotation : Prop :=
  (∀ (f : FlashPort) (c : Client) (a : Access), f.slot c = .empty →
    (a.isRead = true →
      f.place c a =
        { f.setSlot c (.pending a) with
          erase :=
            f.erase.map (fun (e : FlashErase) =>
              if e.condition = .running ∧ e.suspends < 32 then { e with condition := .suspending } else e) }) ∧
    (a.isRead = false → (∀ (d : Client) (y : Access), f.slot d = .pending y → y.isRead = false) →
      (∀ e, f.erase = some e → e.condition ≠ .suspended) → f.place c a = f.setSlot c (.pending a))) ∧
  (∀ (s : State) (passed after : List Client) (c : Client) (a : Access),
    rotation s.flash.pointer = passed ++ c :: after → s.flash.slot c = .pending a → a.addr + a.length ≤ 0x2000000 →
    s.flash.transfer = none → s.flash.resetting = false →
      let granted := { s.flash.setSlot c (.granted a) with pointer := c }
      let issued : State := s.setFlash { granted with transfer := some { client := c, access := a, runTime := 0 } }
      (s.flash.erase = none → (∀ d ∈ passed, ∀ x, s.flash.slot d ≠ .pending x) →
        ((∃ x n, a = .read x n) ∨ (∃ x data, a = .program x data) → exec .accessGrant s = .next issued) ∧
        (∀ x kind,
          (a =
            match kind with
            | .sector => .sectorErase x
            | .block => .blockErase x) →
          exec .accessGrant s =
            .next (s.setFlash
              { granted with
                erase :=
                  some
                    { client := c, kind := kind, addr := x, runTime := 0, suspends := 0,
                      condition := if granted.readPending = true then .suspending else .running } }))) ∧
      (∀ e, s.flash.erase = some e → e.condition = .suspended → a.isRead = true →
        (∀ d ∈ passed, ∀ x, s.flash.slot d = .pending x → x.isRead = false) → exec .accessGrant s = .next issued)) ∧
  (∀ (s : State) (e : FlashErase), s.flash.erase = some e → e.condition = .suspending → e.runTime < e.kind.limit →
    s.flash.transfer = none → s.flash.resetting = false →
      (∀ (passed after : List Client) (c : Client) (x n : Nat), rotation s.flash.pointer = passed ++ c :: after →
        s.flash.slot c = .pending (.read x n) → x + n ≤ 0x2000000 →
        (∀ d ∈ passed, ∀ y, s.flash.slot d = .pending y → y.isRead = false) →
          exec .eraseSuspended s =
            .next (s.setFlash
              { s.flash.setSlot c (.granted (.read x n)) with
                pointer := c
                transfer := some { client := c, access := .read x n, runTime := 0 }
                erase := some { e with condition := .suspended, suspends := e.suspends + 1 } })) ∧
      ((∀ (c : Client) (y : Access), s.flash.slot c = .pending y → y.isRead = false) →
          exec .eraseSuspended s =
            .next (s.setFlash { s.flash with erase := some { e with condition := .running, suspends := e.suspends + 1 } })))

/-- R136, R26 to R28, R30, R35: an operation of the session owner whose run time has reached its limit (8 ms for a program,
1.6 s and 6 s for the erase of a sector and of a block): a flash reset is issued, FLASH_TIMEOUT raised, the slot emptied, and
the request answered OP_FAILED, with the idle timer running again. The entry of a program and that of an erase in an OPEN
shadow is damaged, that of an opening STABLE again with the open count one lower. R39: in ENDING PROG_FAIL or ERASE_FAIL is
set and the session ends. The other clients treat TIMEOUT as they treat FAILED: what follows the timeout of a copy program
(R63), of a record program (R85, R86) and of an erase or program of a map area (R89, R95) is what follows its failure, with
the flash reset issued and FLASH_TIMEOUT raised. When the flash reset completes resetting is no, and nothing else changes. The
model's choices: before the run time, counted in ms, is at the limit OPERATION_TIMEOUT changes nothing (log entry 16), and
what the flash reset leaves of the operation is an operand of it (log entry 10). -/
def Obligations.TimeoutFailsTheOperation : Prop :=
  (∀ (s : State) (p : Port) (left : Remains), s.session.owner = some p → (s.port p).state = .opBusy →
      let resumed : IdleTimer :=
        match s.session.timer with
        | .paused ms => .running ms
        | timer => timer
      let failed : HostPort := { s.port p with state := .ready, inFlight := none, code := .opFailed }
      let gone : HostPort := { s.port p with state := .ready, inFlight := none, code := .abandonedOwner, seg := 0xFF }
      (∀ (a : LogicalAddr) (data : List Byte) (x run : Nat), (s.port p).inFlight = some (.program a data) → 8 ≤ run →
        s.flash.transfer = some { client := portClient p, access := .program x data, runTime := run } →
        (s.entry (segOf a)).phase = .opened →
          let timedOut : State :=
            { s with
              mem := memProgram s.mem x data left
              flash := { s.flash.setSlot (portClient p) .empty with transfer := none, resetting := true }
              faults := { s.faults with flashTimeout := true } }
          (s.session.state = .active →
            exec (.operationTimeout left) s =
              .next (State.setPort
                (State.setEntry (timedOut.setSession { s.session with timer := resumed }) (segOf a)
                  { s.entry (segOf a) with damaged := true })
                p { failed with seg := BitVec.ofNat 8 (segOf a), progFail := true })) ∧
          (s.session.state = .ending →
            exec (.operationTimeout left) s = .next (timedOut.sessionEnded.setPort p { gone with progFail := true }))) ∧
      (∀ (f : InFlight) (e : FlashErase), (s.port p).inFlight = some f → f.isProgram = false → s.flash.transfer = none →
        s.flash.erase = some e → e.client = portClient p → e.condition ≠ .suspended →
        (match e.kind with
          | .sector => 1600
          | .block => 6000) ≤ e.runTime →
          let seg := segOfPhys e.addr
          let timedOut : Nat → State := fun length =>
            { s with
              mem := memErase s.mem e.addr length left
              flash := { s.flash.setSlot (portClient p) .empty with erase := none, resetting := true }
              faults := { s.faults with flashTimeout := true } }
          let lost : State :=
            (timedOut 0x10000).setEntry seg
              { bank := (s.entry seg).bank, phase := .stable, fresh := 0, damaged := false, toOpen := 0 }
          let refused : HostPort := { failed with seg := BitVec.ofNat 8 seg, eraseFail := true }
          (e.kind = .block → (s.entry seg).phase = .opening →
            (s.session.state = .active →
              exec (.operationTimeout left) s =
                .next (State.setPort
                  (lost.setSession { s.session with timer := resumed, openCount := s.session.openCount - 1 }) p refused)) ∧
            (s.session.state = .ending →
              exec (.operationTimeout left) s = .next (lost.sessionEnded.setPort p { gone with eraseFail := true }))) ∧
          ((s.entry seg).phase = .opened → ∀ length,
            (length =
              match e.kind with
              | .sector => 0x1000
              | .block => 0x10000) →
            (s.session.state = .active →
              exec (.operationTimeout left) s =
                .next (State.setPort
                  (State.setEntry ((timedOut length).setSession { s.session with timer := resumed }) seg
                    { s.entry seg with damaged := true })
                  p refused)) ∧
            (s.session.state = .ending →
              exec (.operationTimeout left) s =
                .next ((timedOut length).sessionEnded.setPort p { gone with eraseFail := true }))))) ∧
  (∀ (s : State) (left : Remains),
    (∀ x, s.flash.transfer = some x → x.runTime < 8 → exec (.operationTimeout left) s = .next s) ∧
    (∀ e, s.flash.transfer = none → s.flash.erase = some e →
      e.runTime <
        (match e.kind with
          | .sector => 1600
          | .block => 6000) →
      exec (.operationTimeout left) s = .next s)) ∧
  (∀ (s : State) (left : Remains),
    let timeout : FlashPort → State := fun flash =>
      { s with flash := { flash with resetting := true }, faults := { s.faults with flashTimeout := true } }
    (∀ (client : Client) (x run : Nat) (data : List Byte), 8 ≤ run →
      s.flash.transfer = some { client := client, access := .program x data, runTime := run } →
        let running : State :=
          timeout { s.flash with transfer := some { client := client, access := .program x data, runTime := 0 } }
        (client = .work → s.commit.stage = .fill →
          exec (.operationTimeout left) s = exec (.copyProgramComplete (.failed left)) running) ∧
        (∀ (w : Append) (b : RecordBody) (rest : List RecordBody), client = .log → s.log.append = some w →
          s.log.queue = b :: rest →
            (w.stage = .write ∨ w.stage = .retryWrite →
              exec (.operationTimeout left) s = exec (.recordProgramComplete (.failed left)) running) ∧
            (w.stage = .compacting .header →
              exec (.operationTimeout left) s = exec (.areaHeaderProgramComplete (.failed left)) running) ∧
            (w.stage = .compacting .base →
              exec (.operationTimeout left) s = exec (.baseProgramComplete (.failed left)) running)) ∧
        (client = .log → s.log.append = none →
          (s.log.initStep = some .header →
            exec (.operationTimeout left) s = exec (.areaHeaderProgramComplete (.failed left)) running) ∧
          (s.log.initStep = some .base →
            exec (.operationTimeout left) s = exec (.baseProgramComplete (.failed left)) running))) ∧
    (∀ e : FlashErase, s.flash.transfer = none → s.flash.erase = some e → e.client = .log → e.condition ≠ .suspended →
      (match e.kind with
        | .sector => 1600
        | .block => 6000) ≤ e.runTime →
      (∃ w b rest, s.log.append = some w ∧ s.log.queue = b :: rest ∧ w.stage = .compacting .erase) ∨
        (s.log.append = none ∧ s.log.initStep = some .erase) →
        exec (.operationTimeout left) s =
          exec (.mapAreaEraseComplete (.failed left)) (timeout { s.flash with erase := some { e with runTime := 0 } }))) ∧
  (∀ s : State, exec .flashResetComplete s = .next { s with flash := { s.flash with resetting := false } })

/-! ### The owner's operations -/

/-- R4, R5, R23, R26 to R28, R35, R135: an erase of the owner completes in ACTIVE, and the idle timer runs again. An opening
that succeeds has the entry OPEN with the sectors the open request named; one that fails has it STABLE again and the open
count one lower. The erase of a fresh sector changes no mask; that of a whole OPEN shadow makes all 16 sectors fresh and
clears the damage; the failure of either marks the entry damaged. R39: in ENDING an opening has its entry STABLE again, a
failure sets ERASE_FAIL, and the session ends with ABANDONED_OWNER. -/
def Obligations.OwnerErasesComplete : Prop :=
  ∀ (s : State) (p : Port) (e : FlashErase) (f : InFlight) (left : Remains),
    s.session.owner = some p → (s.port p).state = .opBusy → (s.port p).inFlight = some f →
    f.isProgram = false → s.flash.erase = some e → e.client = portClient p → e.condition ≠ .suspended →
    e.runTime < e.kind.limit →
      let seg := segOfPhys e.addr
      let ended : Nat → Remains → State := fun length left =>
        { s with
          mem := memErase s.mem e.addr length left
          flash := { s.flash.setSlot (portClient p) .empty with erase := none } }
      (s.session.state = .active →
        let resumed : Session :=
          { s.session with
            timer :=
              match s.session.timer with
              | .paused ms => .running ms
              | timer => timer }
        let answered : HostPort := { s.port p with state := .ready, inFlight := none, seg := BitVec.ofNat 8 seg }
        let done : State → State := fun x => (x.setSession resumed).setPort p { answered with code := .success }
        let failed : State → State := fun x =>
          (x.setSession resumed).setPort p { answered with code := .opFailed, eraseFail := true }
        (e.kind = .block → (s.entry seg).phase = .opening →
          exec (.openingEraseComplete .success) s =
            .next (done (State.setEntry (ended 0x10000 []) seg
              { s.entry seg with phase := .opened, fresh := (s.entry seg).toOpen, damaged := false, toOpen := 0 })) ∧
          exec (.openingEraseComplete (.failed left)) s =
            .next (State.setPort
              (State.setSession
                (State.setEntry (ended 0x10000 left) seg
                  { bank := (s.entry seg).bank, phase := .stable, fresh := 0, damaged := false, toOpen := 0 })
                { resumed with openCount := s.session.openCount - 1 })
              p { answered with code := .opFailed, eraseFail := true })) ∧
        ((s.entry seg).phase = .opened →
          (e.kind = .sector →
            exec (.shadowSectorEraseComplete .success) s = .next (done (ended 0x1000 [])) ∧
            exec (.shadowSectorEraseComplete (.failed left)) s =
              .next (failed (State.setEntry (ended 0x1000 left) seg { s.entry seg with damaged := true }))) ∧
          (e.kind = .block →
            exec (.shadowBlockEraseComplete .success) s =
              .next (done (State.setEntry (ended 0x10000 []) seg { s.entry seg with fresh := 0xFFFF, damaged := false })) ∧
            exec (.shadowBlockEraseComplete (.failed left)) s =
              .next (failed (State.setEntry (ended 0x10000 left) seg { s.entry seg with damaged := true }))))) ∧
      (s.session.state = .ending →
        let gone : HostPort := { s.port p with state := .ready, inFlight := none, code := .abandonedOwner, seg := 0xFF }
        let done : State → State := fun x => x.sessionEnded.setPort p gone
        let failed : State → State := fun x => x.sessionEnded.setPort p { gone with eraseFail := true }
        let stable : MapEntry := { bank := (s.entry seg).bank, phase := .stable, fresh := 0, damaged := false, toOpen := 0 }
        (e.kind = .block → (s.entry seg).phase = .opening →
          exec (.openingEraseComplete .success) s = .next (done (State.setEntry (ended 0x10000 []) seg stable)) ∧
          exec (.openingEraseComplete (.failed left)) s =
            .next (failed (State.setEntry (ended 0x10000 left) seg stable))) ∧
        ((s.entry seg).phase = .opened →
          (e.kind = .sector →
            exec (.shadowSectorEraseComplete .success) s = .next (done (ended 0x1000 [])) ∧
            exec (.shadowSectorEraseComplete (.failed left)) s = .next (failed (ended 0x1000 left))) ∧
          (e.kind = .block →
            exec (.shadowBlockEraseComplete .success) s = .next (done (ended 0x10000 [])) ∧
            exec (.shadowBlockEraseComplete (.failed left)) s = .next (failed (ended 0x10000 left)))))

/-- R30, R33, R35, R45, R56, R58, R59, R154: the owner's program completes in ACTIVE, and the idle timer runs again: success is
answered NONE; failure marks the entry damaged; a START-COMMIT that succeeds with no entry damaged makes the session CLOSING
and the port COMMIT_BUSY, and the header range begins under the candidate view; with an entry damaged the commit ends with
SHADOW_DAMAGED naming the lowest such segment. R39: in ENDING a failure sets PROG_FAIL, and the session ends with
ABANDONED_OWNER. -/
def Obligations.OwnerProgramCompletes : Prop :=
  ∀ (s : State) (p : Port) (a : LogicalAddr) (data : List Byte) (x run : Nat) (left : Remains),
    s.session.owner = some p → (s.port p).state = .opBusy →
    (s.port p).inFlight = some (.program a data) → s.flash.erase = none →
    s.flash.transfer = some { client := portClient p, access := .program x data, runTime := run } → run < 8 →
      let ended : Remains → State := fun left =>
        { s with
          mem := memProgram s.mem x data left
          flash := { s.flash.setSlot (portClient p) .empty with transfer := none } }
      (s.session.state = .active → (s.entry (segOf a)).phase = .opened →
        let resumed : Session :=
          { s.session with
            timer :=
              match s.session.timer with
              | .paused ms => .running ms
              | timer => timer }
        let answered : HostPort := { s.port p with state := .ready, inFlight := none, seg := BitVec.ofNat 8 (segOf a) }
        (commitWordOf a data ≠ some .startCommit →
          exec (.ownerProgramComplete .success) s =
            .next (State.setPort ((ended []).setSession resumed) p { answered with code := .success })) ∧
        exec (.ownerProgramComplete (.failed left)) s =
          .next (State.setPort
            (State.setEntry ((ended left).setSession resumed) (segOf a) { s.entry (segOf a) with damaged := true }) p
            { answered with code := .opFailed, progFail := true }) ∧
        (commitWordOf a data = some .startCommit → (∀ e ∈ s.map.entries, e.damaged = false) → s.flash.slotWork = .empty →
          exec (.ownerProgramComplete .success) s =
            .next (State.setPort
              { ended [] with
                session := { s.session with state := .closing, timer := .stopped }
                commit :=
                  { stage := .header, cursor := none, page := 0, buffer := none, summary := none, newBitmap := none,
                    verdict := none }
                check :=
                  { running := true, client := some .commitEngine, kind := some .header, length := 2056, count := 0,
                    crc := 0xFFFFFFFF }
                reader := some { client := .commitEngine, work := .header HeaderCapture.empty }
                flash :=
                  { s.flash.setSlot (portClient p) .empty with
                    transfer := none
                    slotWork := .pending (.read (translate .candidate s.map.entries 0 0) 256) } }
              p { s.port p with state := .commitBusy, inFlight := none, code := .success, seg := 0 })) ∧
        (∀ seg, commitWordOf a data = some .startCommit → seg < s.map.entries.length → (s.entry seg).damaged = true →
          (∀ k < seg, (s.entry k).damaged = false) →
            exec (.ownerProgramComplete .success) s =
              .next (State.setPort
                (State.sessionEnded
                  { ended [] with
                    reader := none
                    commit :=
                      { stage := .idle, cursor := none, page := 0, buffer := none, summary := none, newBitmap := none,
                        verdict := none } })
                p
                { s.port p with
                  state := .ready, inFlight := none, refused := true, code := .shadowDamaged, seg := BitVec.ofNat 8 seg }))) ∧
      (s.session.state = .ending →
        let gone : HostPort := { s.port p with state := .ready, inFlight := none, code := .abandonedOwner, seg := 0xFF }
        exec (.ownerProgramComplete .success) s = .next ((ended []).sessionEnded.setPort p gone) ∧
        exec (.ownerProgramComplete (.failed left)) s =
          .next ((ended left).sessionEnded.setPort p { gone with progFail := true }))

/-! ### The Check Unit, the start-up check and the commit -/

/-- R45, R49 to R51, R54: a chunk of a range enters the Check Unit byte by byte, and while the range is not complete the next
chunk, of at most 256 bytes, is placed, translated under the view of the reader. A chunk of the header range is captured as
well, and chunks captured one after another capture what they do as one. The descriptor read before a segment gives its check
value, and its range is started with the used length of the header summary and its first chunk placed. -/
def Obligations.RangesAreReadChunkByChunk : Prop :=
  ∀ (s : State) (seg : Nat) (a n : Nat), s.flash.readInFlight .work = some (a, n) → s.flash.erase = none →
    (∀ (nextFirst : Bool) (client : CheckClient) (value : Word32), s.reader = some { client := client, work := .segment seg value } →
      s.check.running = true → s.check.count + n ≤ s.check.length → 0 < n →
        let count := s.check.count + n
        exec (.checkChunkReadComplete nextFirst) s =
          .next
            { s with
              check := { (memReadBytes s.mem a n).foldl CheckUnit.take s.check with count := count }
              flash :=
                { s.flash with
                  transfer := none
                  slotWork :=
                    if count < s.check.length then
                      .pending
                        (.read
                          (translate
                            (match client with
                              | .commitEngine => .candidate
                              | .sequencer => .stable)
                            s.map.entries seg ((if seg = 0 then 0x1000 else 0) + count))
                          (min 256 (s.check.length - count)))
                    else .empty } }) ∧
    (∀ (nextFirst : Bool) (sm : HeaderSummary), s.reader = some { client := .commitEngine, work := .descriptor seg } →
      s.commit.summary = some sm →
        let length := (sm.used.getD seg 0).toNat
        exec (.descriptorReadComplete nextFirst) s =
          .next
            { s with
              check :=
                { running := true, client := some .commitEngine, kind := some .segment, length := length, count := 0,
                  crc := 0xFFFFFFFF }
              reader := some { client := .commitEngine, work := .segment seg (le32At (memReadBytes s.mem a n) 4) }
              flash :=
                { s.flash with
                  transfer := none
                  slotWork :=
                    .pending
                      (.read (translate .candidate s.map.entries seg (if seg = 0 then 0x1000 else 0)) (min 256 length)) } }) ∧
    (∀ (nextFirst : Bool) (client : CheckClient) (cap : HeaderCapture),
      s.reader = some { client := client, work := .header cap } →
      s.check.running = true → s.check.count + n ≤ s.check.length → 0 < n →
        let count := s.check.count + n
        exec (.checkChunkReadComplete nextFirst) s =
          .next
            { s with
              check := { (memReadBytes s.mem a n).foldl CheckUnit.take s.check with count := count }
              reader :=
                some { client := client, work := .header (captureWords cap (s.check.count / 4) (memReadBytes s.mem a n)) }
              flash :=
                { s.flash with
                  transfer := none
                  slotWork :=
                    if count < s.check.length then
                      .pending
                        (.read
                          (translate
                            (match client with
                              | .commitEngine => .candidate
                              | .sequencer => .stable)
                            s.map.entries 0 count)
                          (min 256 (s.check.length - count)))
                    else .empty } }) ∧
    (∀ (cap : HeaderCapture) (word : Nat) (chunk rest : List Byte), chunk.length % 4 = 0 →
      captureWords cap word (chunk ++ rest) = captureWords (captureWords cap word chunk) (word + chunk.length / 4) rest)

/-- R51, R53, R66, R121: the Check Unit returns to IDLE with its result (that its kind is absent and its length 0 there is log
entry 6). The last segment of a verification has its check value: the start-up check has passed, or the commit
enters RECORD and asks for a COMMIT record with the new bitmap, the new serial, the header CRC and the strapped limit.
R57, R65, R122: a segment whose CRC-32 differs ends the commit with CHECK_MISMATCH naming it, with every opened entry STABLE
again; in the first start-up check it asks for a rollback to a valid target. With a segment still to be checked its descriptor
is read next (R53, R54; the cursor's sector is then log entry 30). R44, R59, R60, R121, R123: a header range that is complete:
an invalid header ends the commit with HEADER_BAD and a serial that is not greater with STALE_SERIAL; at start-up a header that
is invalid or has another serial fails the check, and a valid one has its first used segment verified. A check that fails as
the second one, or without a target, raises NO_VALID_IMAGE. -/
def Obligations.VerificationDecidesByTheCheckValue : Prop :=
  ∀ (s : State) (seg : Nat) (value : Word32), s.check.running = true → s.check.count = s.check.length →
    let idle : CheckUnit := { running := false, client := none, kind := none, length := 0, count := 0, crc := 0xFFFFFFFF }
    let passed : State :=
      { s with
        check := idle
        reader := none
        seq := { s.seq with checkResult := .passed, summary := none, work := .ended } }
    let failed : Host.Outcome State Fault Refusal → Prop := fun out =>
      (s.seq.checkPass = .first → s.image.targetValid = true →
        out =
          .next
            { s with
              check := idle
              reader := none
              seq := { s.seq with checkResult := .failed, summary := none }
              image := { s.image with rollback := some (.sequencer, .startCheck) }
              log :=
                { s.log with
                  queue := s.log.queue ++ [.rollback s.image.targetBitmap s.image.targetSerial .startCheck] } }) ∧
      (s.seq.checkPass ≠ .first ∨ s.image.targetValid = false →
        out =
          .next
            { s with
              check := idle
              reader := none
              seq := { s.seq with checkResult := .failed, summary := none, work := .ended }
              faults := { s.faults with noValidImage := true } })
    (∀ (sm : HeaderSummary) (next : Nat), crcFinish s.check.crc = value → seg < next → sm.used.getD next 0 ≠ 0 →
      (∀ k, seg < k → k < next → sm.used.getD k 0 = 0) → s.flash.slotWork = .empty → s.flash.erase = none →
        let descriptor : View → Slot := fun view => .pending (.read (translate view s.map.entries 0 (0x10 + 8 * next)) 8)
        (s.reader = some { client := .sequencer, work := .segment seg value } → s.seq.summary = some sm →
          exec .checkRangeResult s =
            .next
              { s with
                check := idle
                reader := some { client := .sequencer, work := .descriptor next }
                flash := { s.flash with slotWork := descriptor .stable } }) ∧
        (s.reader = some { client := .commitEngine, work := .segment seg value } → s.commit.summary = some sm →
          exec .checkRangeResult s =
            .next
              { s with
                check := idle
                reader := some { client := .commitEngine, work := .descriptor next }
                commit := { s.commit with stage := .verify, cursor := some { seg := next, sector := 0 } }
                flash := { s.flash with slotWork := descriptor .candidate } })) ∧
    (crcFinish s.check.crc ≠ value → s.reader = some { client := .sequencer, work := .segment seg value } →
      failed (exec .checkRangeResult s)) ∧
    (∀ cap : HeaderCapture,
      let sm := headerSummary cap (crcFinish s.check.crc)
      (∀ p, s.reader = some { client := .commitEngine, work := .header cap } → s.session.owner = some p →
        (s.port p).state = .commitBusy →
          let refused : Code → State := fun code =>
            State.setPort
              (State.sessionEnded
                { s with
                  check := idle
                  reader := none
                  commit :=
                    { stage := .idle, cursor := none, page := 0, buffer := none, summary := none, newBitmap := none,
                      verdict := none } })
              p { s.port p with state := .ready, inFlight := none, refused := true, code := code, seg := 0xFF }
          (sm.valid = false → exec .checkRangeResult s = .next (refused .headerBad)) ∧
          (sm.valid = true → s.image.state ≠ .virgin → sm.serial.toNat ≤ s.image.serial.toNat →
            exec .checkRangeResult s = .next (refused .staleSerial))) ∧
      (s.reader = some { client := .sequencer, work := .header cap } →
        (sm.valid = false ∨ sm.serial ≠ s.image.serial → failed (exec .checkRangeResult s)) ∧
        (sm.valid = true → sm.serial = s.image.serial →
          ((∀ k, sm.used.getD k 0 = 0) → exec .checkRangeResult s = .next passed) ∧
          (∀ first, sm.used.getD first 0 ≠ 0 → (∀ k < first, sm.used.getD k 0 = 0) → s.flash.slotWork = .empty →
            s.flash.erase = none →
              exec .checkRangeResult s =
                .next
                  { s with
                    check := idle
                    reader := some { client := .sequencer, work := .descriptor first }
                    seq := { s.seq with summary := some sm }
                    flash :=
                      { s.flash with
                        slotWork := .pending (.read (translate .stable s.map.entries 0 (0x10 + 8 * first)) 8) } })))) ∧
    (∀ sm : HeaderSummary, crcFinish s.check.crc = value → (∀ k, seg < k → sm.used.getD k 0 = 0) →
      (s.reader = some { client := .sequencer, work := .segment seg value } → s.seq.summary = some sm →
        exec .checkRangeResult s =
          .next
            { s with
              check := idle
              reader := none
              seq := { s.seq with checkResult := .passed, summary := none, work := .ended } }) ∧
      (s.reader = some { client := .commitEngine, work := .segment seg value } → s.commit.summary = some sm →
        let bitmap := mapBitmap s.map.entries ^^^ readySet s.map.entries
        exec .checkRangeResult s =
          .next
            { s with
              check := idle
              reader := none
              commit := { s.commit with stage := .record, cursor := none, newBitmap := some bitmap }
              log :=
                { s.log with
                  queue := s.log.queue ++ [.commit bitmap sm.serial sm.headerCrc s.seq.straps.trialLim] } })) ∧
    (crcFinish s.check.crc ≠ value →
      (∀ p, s.reader = some { client := .commitEngine, work := .segment seg value } → s.session.owner = some p →
        0 < s.session.openCount → (s.port p).state = .commitBusy →
          exec .checkRangeResult s =
            .next (State.setPort
              { s with
                check := idle
                reader := none
                map :=
                  { s.map with
                    entries :=
                      s.map.entries.map (fun (e : MapEntry) =>
                        if e.phase = .stable ∨ e.phase = .opening then e
                        else { bank := e.bank, phase := .stable, fresh := 0, damaged := false, toOpen := 0 }) }
                session :=
                  { lock := .free, state := .nobody, owner := none, openCount := 0, openLogged := false, timer := .stopped,
                    endReason := none }
                commit :=
                  { stage := .idle, cursor := none, page := 0, buffer := none, summary := none, newBitmap := none,
                    verdict := none } }
              p
              { s.port p with
                state := .ready, inFlight := none, refused := true, code := .checkMismatch, seg := BitVec.ofNat 8 seg })) ∧
      (s.reader = some { client := .sequencer, work := .segment seg value } → s.seq.checkPass = .first →
        s.image.targetValid = true →
          exec .checkRangeResult s =
            .next
              { s with
                check := idle
                reader := none
                seq := { s.seq with checkResult := .failed, summary := none }
                image := { s.image with rollback := some (.sequencer, .startCheck) }
                log :=
                  { s.log with
                    queue := s.log.queue ++ [.rollback s.image.targetBitmap s.image.targetSerial .startCheck] } }))

/-- R9, R12, R61 to R63: a page read from the active copy is programmed to the same offset of the shadow; after its success
the next page of the sector is read; its failure ends the commit with FILL_FAIL naming the segment. R6, R60, R61: with a valid
header that is not stale FILL begins at segment 0; after page 15 the next stale sector of the entry follows, and after the last
of them the entry is READY and the engine goes on at the next segment, where every full entry becomes READY, the next other
one FILLING, and past the last VERIFY is entered (with the cursor's sector of log entry 30). -/
def Obligations.FillCopiesPageByPage : Prop :=
  (∀ (s : State) (cap : HeaderCapture), s.reader = some { client := .commitEngine, work := .header cap } →
    s.check.running = true → s.check.count = s.check.length → s.flash.slotWork = .empty → s.flash.erase = none →
    s.map.entries.length = 255 →
      let sm := headerSummary cap (crcFinish s.check.crc)
      sm.valid = true → s.image.state = .virgin ∨ s.image.serial.toNat < sm.serial.toNat →
        ∃ t : State, exec .checkRangeResult s = .next t ∧
          State.FillGoesOn
            { s with
              check := { running := false, client := none, kind := none, length := 0, count := 0, crc := 0xFFFFFFFF }
              reader := none
              commit := { s.commit with stage := .fill, summary := some sm } }
            0 sm t) ∧
  (∀ (s : State) (cur : Cursor) (x run : Nat) (data : List Byte), s.commit.stage = .fill → s.commit.cursor = some cur →
    s.commit.page = 15 → s.flash.erase = none →
    s.flash.transfer = some { client := .work, access := .program x data, runTime := run } → run < 8 →
      let fresh := (s.entry cur.seg).fresh
      let copied : State :=
        { s with mem := memProgram s.mem x data [], flash := { s.flash with transfer := none, slotWork := .empty } }
      (∀ sector, cur.sector < sector → sector < 16 → fresh.getLsbD sector = false →
        (∀ j, cur.sector < j → j < sector → fresh.getLsbD j = true) →
          exec (.copyProgramComplete .success) s =
            .next
              { copied with
                commit := { s.commit with cursor := some { seg := cur.seg, sector := sector }, page := 0, buffer := none }
                flash :=
                  { copied.flash with
                    slotWork :=
                      .pending (.read (physAddr (s.entry cur.seg).bank cur.seg (sector * 0x1000)) 256) } }) ∧
      (∀ sm : HeaderSummary, (∀ j, cur.sector < j → j < 16 → fresh.getLsbD j = true) → cur.seg < 255 →
        s.map.entries.length = 255 → s.commit.summary = some sm → (s.entry cur.seg).phase = .filling →
          ∃ t : State, exec (.copyProgramComplete .success) s = .next t ∧
            State.FillGoesOn
              (State.setEntry { copied with commit := { s.commit with page := 0, buffer := none } } cur.seg
                { s.entry cur.seg with phase := .ready })
              (cur.seg + 1) sm t)) ∧
  ∀ (s : State) (cur : Cursor), s.commit.stage = .fill → s.commit.cursor = some cur → s.flash.erase = none →
    (∀ a n, s.commit.buffer = none → s.flash.readInFlight .work = some (a, n) →
      exec .copyReadComplete s =
        .next
          { s with
            commit := { s.commit with buffer := some (s.commit.page, memReadBytes s.mem a n) }
            flash :=
              { s.flash with
                transfer := none
                slotWork :=
                  .pending
                    (.program
                      (physAddr (s.entry cur.seg).bank.other cur.seg (cur.sector * 0x1000 + s.commit.page * 0x100))
                      (memReadBytes s.mem a n)) } }) ∧
    (∀ x data run left, s.flash.transfer = some { client := .work, access := .program x data, runTime := run } → run < 8 →
      (s.commit.page < 15 →
        exec (.copyProgramComplete .success) s =
          .next
            { s with
              mem := memProgram s.mem x data []
              commit := { s.commit with page := s.commit.page + 1, buffer := none }
              flash :=
                { s.flash with
                  transfer := none
                  slotWork :=
                    .pending
                      (.read
                        (physAddr (s.entry cur.seg).bank cur.seg (cur.sector * 0x1000 + (s.commit.page + 1) * 0x100)) 256) } }) ∧
      (∀ p, s.session.owner = some p → 0 < s.session.openCount → (s.port p).state = .commitBusy →
        exec (.copyProgramComplete (.failed left)) s =
          .next (State.setPort
            { s with
              mem := memProgram s.mem x data left
              flash := { s.flash with transfer := none, slotWork := .empty }
              reader := none
              map :=
                { s.map with
                  entries :=
                    s.map.entries.map (fun (e : MapEntry) =>
                      if e.phase = .stable ∨ e.phase = .opening then e
                      else { bank := e.bank, phase := .stable, fresh := 0, damaged := false, toOpen := 0 }) }
              session :=
                { lock := .free, state := .nobody, owner := none, openCount := 0, openLogged := false, timer := .stopped,
                  endReason := none }
              commit :=
                { stage := .idle, cursor := none, page := 0, buffer := none, summary := none, newBitmap := none,
                  verdict := none } }
            p
            { s.port p with
              state := .ready, inFlight := none, refused := true, code := .fillFail, seg := BitVec.ofNat 8 cur.seg })))

/-! ### The Log Unit -/

/-- R83, R84, R87, R88: the request at the head of the queue, none being in progress, with the Log Unit OK: its record is
programmed at the append position with the next sequence number; at position 512 the other area is erased first (the position
and the sequence number of the append are then the model's choice, log entry 31). R40, R97, R103: with the Log Unit FAULTED or
CORRUPT an append is answered failure without flash access: after a CONFIRM the image is in TRIAL again and the port receives
LOG_FAIL. R87: at the next sequence number 0xFFFFFFFF, and at position 512 at 0xFFFFFFFE too, the Log Unit is FAULTED with
LOG_FAULT raised and answers every request as it does then. R25, R39: an OPEN that fails so ends its session, with LOG_FAIL
for its erase in ACTIVE and ABANDONED_OWNER in ENDING. R67, R105, R109, R110, R112, R122, R123: a COMMIT ends with LOG_FAIL; a
TRIAL leaves the count and CHECK is entered; a ROLLBACK of a port frees the lock and the port receives LOG_FAIL; one of the
trial step raises TRIAL_EXPIRED and CHECK is entered, one of the start-up check raises NO_VALID_IMAGE. -/
def Obligations.AppendWritesCompactsOrIsRefused : Prop :=
  ∀ (s : State) (b : RecordBody) (rest : List RecordBody), s.log.queue = b :: rest → s.log.append = none →
    s.log.initStep = none → s.log.replay = none →
      (∀ area : Area, s.log.lock = .ok → s.log.area = some area → s.flash.slotLog = .empty → s.flash.erase = none →
        (s.log.position < 512 → s.log.nextSeq ≠ 0xFFFFFFFF →
          exec .appendWrite s =
            .next
              { s with
                log :=
                  { s.log with
                    append := some { stage := .write, position := s.log.position, seq := s.log.nextSeq, retry := false } }
                flash :=
                  { s.flash with
                    slotLog :=
                      .pending (.program (areaBase area + s.log.position * 128) (recordBytes s.log.nextSeq b)) } }) ∧
        (s.log.position = 512 → s.log.nextSeq.toNat < 0xFFFFFFFE →
          exec .appendWrite s =
            .next
              { s with
                log :=
                  { s.log with
                    append :=
                      some { stage := .compacting .erase, position := 512, seq := s.log.nextSeq, retry := false } }
                flash := { s.flash with slotLog := .pending (.blockErase (areaBase area.other)) } })) ∧
      (∀ (p : Port) (serial : Word32), b = .confirm serial → s.image.acceptance = some (p, serial) →
        s.image.state = .confirming → (s.port p).state = .opBusy → s.session.owner ≠ some p →
          let answered : LogLock → FaultSet → State := fun lock faults =>
            State.setPort
              { s with
                log := { s.log with queue := rest, lock := lock }
                faults := faults
                image := { s.image with state := .trial, acceptance := none } }
              p { s.port p with state := .ready, inFlight := none, refused := true, code := .logFail, seg := 0xFF }
          (s.log.lock ≠ .ok → exec .appendWrite s = .next (answered s.log.lock s.faults)) ∧
          (s.log.lock = .ok →
            (s.log.position < 512 ∧ s.log.nextSeq = 0xFFFFFFFF) ∨ (s.log.position = 512 ∧ 0xFFFFFFFE ≤ s.log.nextSeq.toNat) →
              exec .appendWrite s = .next (answered .faulted { s.faults with logFault := true }))) ∧
      (s.log.lock = .ok →
        (s.log.position < 512 ∧ s.log.nextSeq = 0xFFFFFFFF) ∨ (s.log.position = 512 ∧ 0xFFFFFFFE ≤ s.log.nextSeq.toNat) →
          exec .appendWrite s =
            exec .appendWrite
              { s with log := { s.log with lock := .faulted }, faults := { s.faults with logFault := true } }) ∧
      (s.log.lock ≠ .ok →
        let refused : State := { s with log := { s.log with queue := rest } }
        let answered : HostPort → HostPort := fun q =>
          { q with state := .ready, inFlight := none, refused := true, code := .logFail, seg := 0xFF }
        (∀ p, b = .opened → s.session.owner = some p → (s.port p).state = .opBusy →
          (∀ f, s.session.state = .active → (s.port p).inFlight = some f →
            exec .appendWrite s =
              .next (State.setPort
                { refused with
                  session :=
                    { lock := .free, state := .nobody, owner := none, openCount := 0, openLogged := false,
                      timer := .stopped, endReason := none } }
                p { answered (s.port p) with seg := f.addr.extractLsb' 16 8 })) ∧
          (s.session.state = .ending →
            exec .appendWrite s =
              .next (State.setPort refused.sessionEnded p
                { s.port p with state := .ready, inFlight := none, code := .abandonedOwner, seg := 0xFF }))) ∧
        (∀ bm serial crc limit p, b = .commit bm serial crc limit → s.session.owner = some p →
          (s.port p).state = .commitBusy →
            exec .appendWrite s =
              .next (State.setPort
                (State.sessionEnded
                  { refused with
                    reader := none
                    commit :=
                      { stage := .idle, cursor := none, page := 0, buffer := none, summary := none, newBitmap := none,
                        verdict := none } })
                p (answered (s.port p)))) ∧
        (∀ count, b = .trial count →
          exec .appendWrite s = .next { refused with seq := { s.seq with phase := .check, work := .notBegun } }) ∧
        (∀ bm serial cause, b = .rollback bm serial cause →
          (∀ p, s.image.rollback = some (.port p, .requested) → s.session.lock = .rollback → s.session.owner ≠ some p →
            (s.port p).state = .opBusy →
              exec .appendWrite s =
                .next (State.setPort
                  { refused with
                    image := { s.image with rollback := none }, session := { s.session with lock := .free } }
                  p (answered (s.port p)))) ∧
          (s.image.rollback = some (.sequencer, .trialExpired) →
            exec .appendWrite s =
              .next
                { refused with
                  image := { s.image with rollback := none }
                  faults := { s.faults with trialExpired := true }
                  seq := { s.seq with phase := .check, work := .notBegun } }) ∧
          (s.image.rollback = some (.sequencer, .startCheck) →
            exec .appendWrite s =
              .next
                { refused with
                  image := { s.image with rollback := none }
                  faults := { s.faults with noValidImage := true }
                  seq := { s.seq with checkResult := .failed, work := .ended } })))

/-- R24, R39, R81, R84 to R86, R100, R103: the program of a record ends, in WRITE or in RETRY_WRITE. With success the record
is applied to the summary, the position and the next sequence number rise by one and the requester is answered: a CONFIRM has
the image CONFIRMED, a TRIAL its count taken and CHECK entered; an OPEN makes the target invalid, and the opening goes on in
ACTIVE with OPEN logged yes, or the abandon completes in ENDING; a COMMIT and a ROLLBACK request their switch (R15, R67, R105,
R110), which takes effect at once when no transfer is pinned. With failure the position rises by one and the record is read
back, in READ_BACK or in RETRY_READ_BACK. -/
def Obligations.RecordProgramEnds : Prop :=
  ∀ (s : State) (b : RecordBody) (rest : List RecordBody) (w : Append) (x run : Nat) (data : List Byte) (left : Remains),
    s.log.queue = b :: rest → s.log.append = some w → w.stage = .write ∨ w.stage = .retryWrite → s.flash.erase = none →
    s.flash.transfer = some { client := .log, access := .program x data, runTime := run } → run < 8 →
      (∀ p serial, b = .confirm serial → s.image.acceptance = some (p, serial) → s.image.state = .confirming →
        s.image.serial = serial → (s.port p).state = .opBusy → s.session.owner ≠ some p →
          exec (.recordProgramComplete .success) s =
            .next (State.setPort
              { s with
                mem := memProgram s.mem x data []
                flash := { s.flash with transfer := none, slotLog := .empty }
                log :=
                  { s.log with
                    queue := rest
                    append := none
                    position := s.log.position + 1
                    nextSeq := s.log.nextSeq + 1
                    summary :=
                      if serial = s.log.summary.serial then { s.log.summary with state := .confirmed } else s.log.summary }
                image := { s.image with state := .confirmed, acceptance := none } }
              p { s.port p with state := .ready, inFlight := none, code := .confirmed, seg := 0xFF })) ∧
      (let logged : LogSummary → State := fun summary =>
        { s with
          mem := memProgram s.mem x data []
          flash := { s.flash with transfer := none, slotLog := .empty }
          log :=
            { s.log with
              queue := rest, append := none, position := s.log.position + 1, nextSeq := s.log.nextSeq + 1
              summary := summary } }
      let switches : State → Prop := fun requested =>
        (s.map.pinned ≠ 0 → exec (.recordProgramComplete .success) s = .next requested) ∧
        (s.map.pinned = 0 → exec (.recordProgramComplete .success) s = exec .switchTakesEffect requested)
      (∀ p, b = .opened → s.session.owner = some p →
        let invalid : State :=
          { logged { s.log.summary with targetValid := false } with image := { s.image with targetValid := false } }
        (∀ (f : InFlight) (addr : LogicalAddr) (toOpen : SectorSet), s.session.state = .active →
          (s.port p).inFlight = some f →
          (f = .sectorErase addr ∧ toOpen = 1#16 <<< sectorOf addr) ∨ (f = .segmentErase addr ∧ toOpen = 0xFFFF) →
          (s.entry (segOf addr)).phase = .stable → s.flash.slot (portClient p) = .empty →
            exec (.recordProgramComplete .success) s =
              .next (State.setEntry
                { invalid with
                  session := { s.session with openLogged := true, openCount := s.session.openCount + 1 }
                  flash :=
                    { (s.flash.setSlot .log .empty).setSlot (portClient p)
                        (.pending (.blockErase (physAddr (s.entry (segOf addr)).bank.other (segOf addr) 0))) with
                      transfer := none } }
                (segOf addr)
                { bank := (s.entry (segOf addr)).bank, phase := .opening, fresh := 0, damaged := false,
                  toOpen := toOpen })) ∧
        (s.session.state = .ending → (s.port p).state = .opBusy →
          exec (.recordProgramComplete .success) s =
            .next (State.setPort invalid.sessionEnded p
              { s.port p with state := .ready, inFlight := none, code := .abandonedOwner, seg := 0xFF }))) ∧
      (∀ count, b = .trial count →
        exec (.recordProgramComplete .success) s =
          .next
            { logged { s.log.summary with count := count } with
              image := { s.image with count := count }
              seq := { s.seq with phase := .check, work := .notBegun } }) ∧
      (∀ bm serial crc limit, b = .commit bm serial crc limit →
        switches
          { logged
              { bitmap := bm, serial := serial, state := if limit = 0 then .confirmed else .trial, count := 0, limit := limit,
                targetValid := true, targetBitmap := s.log.summary.bitmap, targetSerial := s.log.summary.serial } with
            commit := { s.commit with stage := .switch }
            map :=
              { s.map with
                switch :=
                  some { requester := .commitEngine, flip := readySet s.map.entries, endsEpoch := s.map.epoch } } }) ∧
      (∀ bm serial cause who, b = .rollback bm serial cause → s.image.rollback = some who →
        switches
          { logged
              { s.log.summary with bitmap := bm, serial := serial, state := .confirmed, count := 0, targetValid := false } with
            map :=
              { s.map with
                switch :=
                  some
                    { requester := .imageState, flip := rollbackFlip s.map.entries s.image.targetBitmap,
                      endsEpoch := s.map.epoch } } })) ∧
      exec (.recordProgramComplete (.failed left)) s =
        .next
          { s with
            mem := memProgram s.mem x data left
            log :=
              { s.log with
                position := s.log.position + 1
                append := some { w with stage := if w.stage = .write then .readBack else .retryReadBack } }
            flash :=
              { s.flash with
                transfer := none
                slotLog := .pending (.read (areaBase (s.log.area.getD .zero) + w.position * 128) 128) } }

/-- R24, R85, R86, R100: a read-back that finds the record of this append has it succeed, here that of an OPEN: the target is
invalid, OPEN logged is yes, and the opening goes on. One that does not find it: after WRITE the record is written once more
at the new append position with the same sequence number, or, that position being 512, the other area is erased for the
compaction that makes the retry (its position and sequence number are the model's choice, log entry 31); after RETRY_WRITE the
append has failed, the Log Unit is FAULTED with LOG_FAULT raised, and the requester is answered failure, here that of an OPEN,
whose session ends, with LOG_FAIL in ACTIVE and ABANDONED_OWNER in ENDING (R25, R39). -/
def Obligations.ReadBackDecidesTheAppend : Prop :=
  ∀ (s : State) (b : RecordBody) (rest : List RecordBody) (w : Append) (a n : Nat), s.log.queue = b :: rest →
    s.log.append = some w → s.flash.erase = none → s.flash.readInFlight .log = some (a, n) →
      (∀ (body : RecordBody) (p : Port) (addr : LogicalAddr), b = .opened →
        w.stage = .readBack ∨ w.stage = .retryReadBack → validRecord (memReadBytes s.mem a n) = some (w.seq, body) →
        s.session.state = .active → s.session.owner = some p → (s.port p).inFlight = some (.segmentErase addr) →
        (s.entry (segOf addr)).phase = .stable → s.flash.slot (portClient p) = .empty →
          exec .readBackComplete s =
            .next (State.setEntry
              { s with
                log :=
                  { s.log with
                    queue := rest
                    append := none
                    nextSeq := s.log.nextSeq + 1
                    summary := { s.log.summary with targetValid := false } }
                image := { s.image with targetValid := false }
                session := { s.session with openLogged := true, openCount := s.session.openCount + 1 }
                flash :=
                  { (s.flash.setSlot .log .empty).setSlot (portClient p)
                      (.pending (.blockErase (physAddr (s.entry (segOf addr)).bank.other (segOf addr) 0))) with
                    transfer := none } }
              (segOf addr)
              { bank := (s.entry (segOf addr)).bank, phase := .opening, fresh := 0, damaged := false, toOpen := 0xFFFF })) ∧
      (s.log.lock = .ok → (∀ body, validRecord (memReadBytes s.mem a n) ≠ some (w.seq, body)) →
        (w.stage = .readBack → s.log.position < 512 →
          exec .readBackComplete s =
            .next
              { s with
                log :=
                  { s.log with
                    append :=
                      some { stage := .retryWrite, position := s.log.position, seq := s.log.nextSeq, retry := false } }
                flash :=
                  { s.flash with
                    transfer := none
                    slotLog :=
                      .pending
                        (.program (areaBase (s.log.area.getD .zero) + s.log.position * 128)
                          (recordBytes s.log.nextSeq b)) } }) ∧
        (w.stage = .readBack → s.log.position = 512 → s.log.nextSeq.toNat < 0xFFFFFFFE →
          exec .readBackComplete s =
            .next
              { s with
                log :=
                  { s.log with
                    append := some { stage := .compacting .erase, position := 512, seq := s.log.nextSeq, retry := true } }
                flash :=
                  { s.flash with
                    transfer := none
                    slotLog := .pending (.blockErase (areaBase (s.log.area.getD .zero).other)) } }) ∧
        (∀ p, w.stage = .retryReadBack → b = .opened → s.session.state = .ending → s.session.owner = some p →
          (s.port p).state = .opBusy →
            exec .readBackComplete s =
              .next (State.setPort
                (State.sessionEnded
                  { s with
                    flash := { s.flash with transfer := none, slotLog := .empty }
                    log := { s.log with queue := rest, append := none, lock := .faulted }
                    faults := { s.faults with logFault := true } })
                p { s.port p with state := .ready, inFlight := none, code := .abandonedOwner, seg := 0xFF })) ∧
        (∀ p f, w.stage = .retryReadBack → b = .opened → s.session.state = .active → s.session.owner = some p →
          (s.port p).state = .opBusy → (s.port p).inFlight = some f →
            exec .readBackComplete s =
              .next (State.setPort
                { s with
                  flash := { s.flash with transfer := none, slotLog := .empty }
                  log := { s.log with queue := rest, append := none, lock := .faulted }
                  faults := { s.faults with logFault := true }
                  session :=
                    { lock := .free, state := .nobody, owner := none, openCount := 0, openLogged := false,
                      timer := .stopped, endReason := none } }
                p
                { s.port p with
                  state := .ready, inFlight := none, refused := true, code := .logFail,
                  seg := f.addr.extractLsb' 16 8 })))

/-- R78, R88, R89, R95: the steps that write a map area follow one another, erase, header, BASE, for a compaction into the
other area and for the initialisation of area 0, with generation 1 and sequence number 1; after the BASE the area is current
with position 2, and a compaction goes on with the requested record. A step that fails leaves the Log Unit FAULTED with
LOG_FAULT raised: the requester of a compaction is answered failure, here that of a CONFIRM, and an initialisation hands the
initial summary over and TRIAL_STEP is entered. -/
def Obligations.MapAreaIsWrittenInOrder : Prop :=
  ∀ s : State,
    (∀ (b : RecordBody) (rest : List RecordBody) (w : Append) (p : Port) (serial : Word32) (left : Remains),
      s.log.queue = b :: rest → s.log.append = some w → s.log.lock = .ok → b = .confirm serial →
      s.image.acceptance = some (p, serial) → s.image.state = .confirming → (s.port p).state = .opBusy →
      s.session.owner ≠ some p →
        let failed : List Host.Cell → FlashPort → State := fun mem flash =>
          State.setPort
            { s with
              mem := mem
              flash := flash
              log := { s.log with queue := rest, append := none, lock := .faulted }
              faults := { s.faults with logFault := true }
              image := { s.image with state := .trial, acceptance := none } }
            p { s.port p with state := .ready, inFlight := none, refused := true, code := .logFail, seg := 0xFF }
        (∀ e, w.stage = .compacting .erase → s.flash.erase = some e → e.client = .log → e.condition ≠ .suspended →
          e.runTime < e.kind.limit →
            exec (.mapAreaEraseComplete (.failed left)) s =
              .next (failed (memErase s.mem e.addr e.kind.length left)
                { s.flash with erase := none, slotLog := .empty })) ∧
        (∀ x data run, s.flash.transfer = some { client := .log, access := .program x data, runTime := run } → run < 8 →
          let failedProgram := failed (memProgram s.mem x data left) { s.flash with transfer := none, slotLog := .empty }
          (w.stage = .compacting .header → exec (.areaHeaderProgramComplete (.failed left)) s = .next failedProgram) ∧
          (w.stage = .compacting .base → exec (.baseProgramComplete (.failed left)) s = .next failedProgram))) ∧
    (s.log.append = none →
      (∀ e, s.log.initStep = some .erase → s.flash.transfer = none → s.flash.erase = some e → e.client = .log →
        e.condition ≠ .suspended → e.runTime < e.kind.limit →
          exec (.mapAreaEraseComplete .success) s =
            .next
              { s with
                mem := memErase s.mem e.addr e.kind.length []
                log := { s.log with initStep := some .header }
                flash :=
                  { s.flash with erase := none, slotLog := .pending (.program 0x0FF0000 (areaHeaderBytes 1)) } }) ∧
      (∀ x data run, s.log.initStep = some .header → s.flash.erase = none →
        s.flash.transfer = some { client := .log, access := .program x data, runTime := run } → run < 8 →
          exec (.areaHeaderProgramComplete .success) s =
            .next
              { s with
                mem := memProgram s.mem x data []
                log := { s.log with initStep := some .base }
                flash :=
                  { s.flash with
                    transfer := none
                    slotLog := .pending (.program 0x0FF0080 (recordBytes 1 (.base LogSummary.initial))) } }) ∧
      (∀ left : Remains, s.log.lock = .ok → s.map.entries.length = 255 →
        ∃ es : List MapEntry, (∀ seg < 255, entryOf es seg = { s.entry seg with bank := .a }) ∧ es.length = 255 ∧
          let failed : List Host.Cell → FlashPort → State := fun mem flash =>
            { s with
              mem := mem
              flash := flash
              map := { s.map with entries := es }
              log := { s.log with initStep := none, lock := .faulted }
              faults := { s.faults with logFault := true }
              image :=
                { s.image with
                  serial := 0, state := .virgin, count := 0, limit := 0, targetValid := false, targetBitmap := 0,
                  targetSerial := 0 }
              seq := { s.seq with phase := .trialStep, work := .notBegun } }
          (∀ e, s.log.initStep = some .erase → s.flash.erase = some e → e.client = .log → e.condition ≠ .suspended →
            e.runTime < e.kind.limit →
              exec (.mapAreaEraseComplete (.failed left)) s =
                .next (failed (memErase s.mem e.addr e.kind.length left)
                  { s.flash with erase := none, slotLog := .empty })) ∧
          (∀ x data run, s.flash.transfer = some { client := .log, access := .program x data, runTime := run } → run < 8 →
            let failedProgram := failed (memProgram s.mem x data left) { s.flash with transfer := none, slotLog := .empty }
            (s.log.initStep = some .header → exec (.areaHeaderProgramComplete (.failed left)) s = .next failedProgram) ∧
            (s.log.initStep = some .base → exec (.baseProgramComplete (.failed left)) s = .next failedProgram)))) ∧
    (∀ (b : RecordBody) (rest : List RecordBody) (w : Append) (area : Area) (generation : Word32),
      s.log.queue = b :: rest → s.log.append = some w → s.log.area = some area → s.log.generation = some generation →
        (∀ e, w.stage = .compacting .erase → s.flash.transfer = none → s.flash.erase = some e → e.client = .log →
          e.condition ≠ .suspended → e.runTime < e.kind.limit →
            exec (.mapAreaEraseComplete .success) s =
              .next
                { s with
                  mem := memErase s.mem e.addr e.kind.length []
                  log := { s.log with append := some { w with stage := .compacting .header } }
                  flash :=
                    { s.flash with
                      erase := none
                      slotLog := .pending (.program (areaBase area.other) (areaHeaderBytes (generation + 1))) } }) ∧
        (∀ x data run, s.flash.erase = none →
          s.flash.transfer = some { client := .log, access := .program x data, runTime := run } → run < 8 →
            (w.stage = .compacting .header →
              exec (.areaHeaderProgramComplete .success) s =
                .next
                  { s with
                    mem := memProgram s.mem x data []
                    log := { s.log with append := some { w with stage := .compacting .base } }
                    flash :=
                      { s.flash with
                        transfer := none
                        slotLog :=
                          .pending
                            (.program (areaBase area.other + 128) (recordBytes s.log.nextSeq (.base s.log.summary))) } }) ∧
            (w.stage = .compacting .base →
              exec (.baseProgramComplete .success) s =
                .next
                  { s with
                    mem := memProgram s.mem x data []
                    log :=
                      { s.log with
                        area := some area.other
                        generation := some (generation + 1)
                        position := 2
                        nextSeq := s.log.nextSeq + 1
                        append :=
                          some
                            { stage := if w.retry = true then .retryWrite else .write, position := 2,
                              seq := s.log.nextSeq + 1, retry := false } }
                    flash :=
                      { s.flash with
                        transfer := none
                        slotLog :=
                          .pending (.program (areaBase area.other + 256) (recordBytes (s.log.nextSeq + 1) b)) } }))) ∧
    (∀ x data run, s.log.append = none → s.log.initStep = some .base → s.flash.erase = none →
      s.flash.transfer = some { client := .log, access := .program x data, runTime := run } → run < 8 →
        exec (.baseProgramComplete .success) s =
          .next
            { s with
              mem := memProgram s.mem x data []
              log :=
                { s.log with
                  area := some .zero
                  generation := some 1
                  position := 2
                  nextSeq := 2
                  summary := LogSummary.initial
                  initStep := none }
              seq := { s.seq with phase := .trialStep, work := .notBegun }
              flash := { s.flash with transfer := none, slotLog := .empty } })

/-! ### The switch -/

/-- R15, R17, R34, R69, R70, R161: a pending commit switch takes effect when no transfer is pinned: the flip set changes banks
together and its entries are STABLE, the epoch rises by one, the commit is applied, the session ends and its owner receives
COMMITTED. R16, R106: a pending rollback switch keeps the phases; the rollback is applied, the lock is FREE, the requesting
port receives ROLLED_BACK, and a held transfer of the other port pins the new epoch. R110, R112, R122: before SERVING IMAGE_OK
stays as it was; after a rollback of the trial step CHECK is entered, and after one of the start-up check the second check
begins with the header of the image now active. -/
def Obligations.SwitchTakesEffect : Prop :=
  ∀ (s : State) (p : Port) (flip : Bitmap) (ends : Word32), s.map.pinned = 0 → s.map.entries.length = 255 →
    (∀ cause : RollbackCause, s.map.switch = some { requester := .imageState, flip := flip, endsEpoch := ends } →
      s.seq.phase ≠ .serving → s.image.rollback = some (.sequencer, cause) → s.hp0.transfer = none → s.hp1.transfer = none →
        ∃ es : List MapEntry,
          (∀ seg < 255,
            entryOf es seg =
              if flip.getLsbD seg then { s.entry seg with bank := (s.entry seg).bank.other } else s.entry seg) ∧
          es.length = 255 ∧
          let rolledBack : State :=
            { s with
              map := { entries := es, epoch := s.map.epoch + 1, pinned := 0, switch := none }
              image :=
                { s.image with
                  serial := s.image.targetSerial, state := .confirmed, count := 0, targetValid := false, rollback := none }
              faults := { s.faults with noValidImage := false, trialExpired := false } }
          (cause = .trialExpired →
            exec .switchTakesEffect s =
              .next { rolledBack with seq := { s.seq with phase := .check, work := .notBegun } }) ∧
          (cause = .startCheck → s.flash.slotWork = .empty → s.flash.erase = none →
            exec .switchTakesEffect s =
              .next
                { rolledBack with
                  seq := { s.seq with checkPass := .second }
                  check :=
                    { running := true, client := some .sequencer, kind := some .header, length := 2056, count := 0,
                      crc := 0xFFFFFFFF }
                  reader := some { client := .sequencer, work := .header HeaderCapture.empty }
                  flash :=
                    { s.flash with slotWork := .pending (.read (physAddr (entryOf es 0).bank 0 0) 256) } })) ∧
    (∀ sm : HeaderSummary, s.map.switch = some { requester := .commitEngine, flip := flip, endsEpoch := ends } →
      s.session.owner = some p → s.commit.summary = some sm → (s.port p).state = .commitBusy → s.hp0.transfer = none →
      s.hp1.transfer = none →
        ∃ es : List MapEntry,
          (∀ seg < 255,
            entryOf es seg =
              if flip.getLsbD seg then
                { bank := (s.entry seg).bank.other, phase := .stable, fresh := 0, damaged := false, toOpen := 0 }
              else s.entry seg) ∧
          exec .switchTakesEffect s =
            .next (State.setPort
              { s with
                map := { entries := es, epoch := s.map.epoch + 1, pinned := 0, switch := none }
                image :=
                  { s.image with
                    targetValid := true
                    targetBitmap := mapBitmap s.map.entries
                    targetSerial := s.image.serial
                    serial := sm.serial
                    state := if s.seq.straps.trialLim = 0 then .confirmed else .trial
                    count := 0
                    limit := s.seq.straps.trialLim
                    imageOk := true }
                session :=
                  { lock := .free, state := .nobody, owner := none, openCount := 0, openLogged := false, timer := .stopped,
                    endReason := none }
                commit :=
                  { stage := .idle, cursor := none, page := 0, buffer := none, summary := none, newBitmap := none,
                    verdict := none }
                faults := { s.faults with noValidImage := false, trialExpired := false } }
              p { s.port p with state := .ready, inFlight := none, code := .committed, seg := 0xFF })) ∧
    (∀ x : HostTransfer, s.map.switch = some { requester := .imageState, flip := flip, endsEpoch := ends } →
      s.seq.phase = .serving → s.session.lock = .rollback → s.session.state = .nobody →
      s.image.rollback = some (.port p, .requested) → (s.port p).state = .opBusy → (s.port p).transfer = none →
      (s.port (otherPort p)).transfer = some x → x.epoch = none → x.ended = false →
        ∃ t : State, exec .switchTakesEffect s = .next t ∧
          (∀ seg < 255,
            t.entry seg =
              if flip.getLsbD seg then { s.entry seg with bank := (s.entry seg).bank.other } else s.entry seg) ∧
          t.map.epoch = s.map.epoch + 1 ∧ t.map.switch = none ∧ t.map.pinned = 1 ∧
          t.image =
            { s.image with
              serial := s.image.targetSerial, state := .confirmed, count := 0, targetValid := false, imageOk := true,
              rollback := none } ∧
          t.session = { s.session with lock := .free } ∧
          t.faults = { s.faults with noValidImage := false, trialExpired := false } ∧
          t.port p = { s.port p with state := .ready, inFlight := none, code := .rolledBack, seg := 0xFF } ∧
          (∃ y, (t.port (otherPort p)).transfer = some y ∧ y.epoch = some (s.map.epoch + 1)) ∧ t.mem = s.mem ∧
          t.log = s.log)

end
end

