-- ==== Sys2Proof/Laws/State.lean ====
section
/-!
SUPPORT. What each replacement of a part of the state leaves in each field: one lemma for each field of each replacement,
so that no later proof unfolds a record update.
-/

namespace Sys2Proof.Machine

/-! ### State.setEntries -/

@[simp] theorem setEntries_pending (s : State) (es : List MapEntry) : (s.setEntries es).pending = s.pending := rfl
@[simp] theorem setEntries_mem (s : State) (es : List MapEntry) : (s.setEntries es).mem = s.mem := rfl
@[simp] theorem setEntries_leftover (s : State) (es : List MapEntry) : (s.setEntries es).leftover = s.leftover := rfl
@[simp] theorem setEntries_freeCount (s : State) (es : List MapEntry) : (s.setEntries es).freeCount = s.freeCount := rfl
@[simp] theorem setEntries_map (s : State) (es : List MapEntry) : (s.setEntries es).map = { s.map with entries := es } := rfl
@[simp] theorem setEntries_session (s : State) (es : List MapEntry) : (s.setEntries es).session = s.session := rfl
@[simp] theorem setEntries_commit (s : State) (es : List MapEntry) : (s.setEntries es).commit = s.commit := rfl
@[simp] theorem setEntries_check (s : State) (es : List MapEntry) : (s.setEntries es).check = s.check := rfl
@[simp] theorem setEntries_reader (s : State) (es : List MapEntry) : (s.setEntries es).reader = s.reader := rfl
@[simp] theorem setEntries_log (s : State) (es : List MapEntry) : (s.setEntries es).log = s.log := rfl
@[simp] theorem setEntries_image (s : State) (es : List MapEntry) : (s.setEntries es).image = s.image := rfl
@[simp] theorem setEntries_seq (s : State) (es : List MapEntry) : (s.setEntries es).seq = s.seq := rfl
@[simp] theorem setEntries_flash (s : State) (es : List MapEntry) : (s.setEntries es).flash = s.flash := rfl
@[simp] theorem setEntries_hp0 (s : State) (es : List MapEntry) : (s.setEntries es).hp0 = s.hp0 := rfl
@[simp] theorem setEntries_hp1 (s : State) (es : List MapEntry) : (s.setEntries es).hp1 = s.hp1 := rfl
@[simp] theorem setEntries_faults (s : State) (es : List MapEntry) : (s.setEntries es).faults = s.faults := rfl

/-! ### State.setMem -/

@[simp] theorem setMem_pending (s : State) (m : List Host.Cell) : (s.setMem m).pending = s.pending := rfl
@[simp] theorem setMem_mem (s : State) (m : List Host.Cell) : (s.setMem m).mem = m := rfl
@[simp] theorem setMem_leftover (s : State) (m : List Host.Cell) : (s.setMem m).leftover = s.leftover := rfl
@[simp] theorem setMem_freeCount (s : State) (m : List Host.Cell) : (s.setMem m).freeCount = s.freeCount := rfl
@[simp] theorem setMem_map (s : State) (m : List Host.Cell) : (s.setMem m).map = s.map := rfl
@[simp] theorem setMem_session (s : State) (m : List Host.Cell) : (s.setMem m).session = s.session := rfl
@[simp] theorem setMem_commit (s : State) (m : List Host.Cell) : (s.setMem m).commit = s.commit := rfl
@[simp] theorem setMem_check (s : State) (m : List Host.Cell) : (s.setMem m).check = s.check := rfl
@[simp] theorem setMem_reader (s : State) (m : List Host.Cell) : (s.setMem m).reader = s.reader := rfl
@[simp] theorem setMem_log (s : State) (m : List Host.Cell) : (s.setMem m).log = s.log := rfl
@[simp] theorem setMem_image (s : State) (m : List Host.Cell) : (s.setMem m).image = s.image := rfl
@[simp] theorem setMem_seq (s : State) (m : List Host.Cell) : (s.setMem m).seq = s.seq := rfl
@[simp] theorem setMem_flash (s : State) (m : List Host.Cell) : (s.setMem m).flash = s.flash := rfl
@[simp] theorem setMem_hp0 (s : State) (m : List Host.Cell) : (s.setMem m).hp0 = s.hp0 := rfl
@[simp] theorem setMem_hp1 (s : State) (m : List Host.Cell) : (s.setMem m).hp1 = s.hp1 := rfl
@[simp] theorem setMem_faults (s : State) (m : List Host.Cell) : (s.setMem m).faults = s.faults := rfl

/-! ### State.setFlash -/

@[simp] theorem setFlash_pending (s : State) (f : FlashPort) : (s.setFlash f).pending = s.pending := rfl
@[simp] theorem setFlash_mem (s : State) (f : FlashPort) : (s.setFlash f).mem = s.mem := rfl
@[simp] theorem setFlash_leftover (s : State) (f : FlashPort) : (s.setFlash f).leftover = s.leftover := rfl
@[simp] theorem setFlash_freeCount (s : State) (f : FlashPort) : (s.setFlash f).freeCount = s.freeCount := rfl
@[simp] theorem setFlash_map (s : State) (f : FlashPort) : (s.setFlash f).map = s.map := rfl
@[simp] theorem setFlash_session (s : State) (f : FlashPort) : (s.setFlash f).session = s.session := rfl
@[simp] theorem setFlash_commit (s : State) (f : FlashPort) : (s.setFlash f).commit = s.commit := rfl
@[simp] theorem setFlash_check (s : State) (f : FlashPort) : (s.setFlash f).check = s.check := rfl
@[simp] theorem setFlash_reader (s : State) (f : FlashPort) : (s.setFlash f).reader = s.reader := rfl
@[simp] theorem setFlash_log (s : State) (f : FlashPort) : (s.setFlash f).log = s.log := rfl
@[simp] theorem setFlash_image (s : State) (f : FlashPort) : (s.setFlash f).image = s.image := rfl
@[simp] theorem setFlash_seq (s : State) (f : FlashPort) : (s.setFlash f).seq = s.seq := rfl
@[simp] theorem setFlash_flash (s : State) (f : FlashPort) : (s.setFlash f).flash = f := rfl
@[simp] theorem setFlash_hp0 (s : State) (f : FlashPort) : (s.setFlash f).hp0 = s.hp0 := rfl
@[simp] theorem setFlash_hp1 (s : State) (f : FlashPort) : (s.setFlash f).hp1 = s.hp1 := rfl
@[simp] theorem setFlash_faults (s : State) (f : FlashPort) : (s.setFlash f).faults = s.faults := rfl

/-! ### State.setSession -/

@[simp] theorem setSession_pending (s : State) (x : Session) : (s.setSession x).pending = s.pending := rfl
@[simp] theorem setSession_mem (s : State) (x : Session) : (s.setSession x).mem = s.mem := rfl
@[simp] theorem setSession_leftover (s : State) (x : Session) : (s.setSession x).leftover = s.leftover := rfl
@[simp] theorem setSession_freeCount (s : State) (x : Session) : (s.setSession x).freeCount = s.freeCount := rfl
@[simp] theorem setSession_map (s : State) (x : Session) : (s.setSession x).map = s.map := rfl
@[simp] theorem setSession_session (s : State) (x : Session) : (s.setSession x).session = x := rfl
@[simp] theorem setSession_commit (s : State) (x : Session) : (s.setSession x).commit = s.commit := rfl
@[simp] theorem setSession_check (s : State) (x : Session) : (s.setSession x).check = s.check := rfl
@[simp] theorem setSession_reader (s : State) (x : Session) : (s.setSession x).reader = s.reader := rfl
@[simp] theorem setSession_log (s : State) (x : Session) : (s.setSession x).log = s.log := rfl
@[simp] theorem setSession_image (s : State) (x : Session) : (s.setSession x).image = s.image := rfl
@[simp] theorem setSession_seq (s : State) (x : Session) : (s.setSession x).seq = s.seq := rfl
@[simp] theorem setSession_flash (s : State) (x : Session) : (s.setSession x).flash = s.flash := rfl
@[simp] theorem setSession_hp0 (s : State) (x : Session) : (s.setSession x).hp0 = s.hp0 := rfl
@[simp] theorem setSession_hp1 (s : State) (x : Session) : (s.setSession x).hp1 = s.hp1 := rfl
@[simp] theorem setSession_faults (s : State) (x : Session) : (s.setSession x).faults = s.faults := rfl

/-! ### State.setCommit -/

@[simp] theorem setCommit_pending (s : State) (c : CommitRecord) : (s.setCommit c).pending = s.pending := rfl
@[simp] theorem setCommit_mem (s : State) (c : CommitRecord) : (s.setCommit c).mem = s.mem := rfl
@[simp] theorem setCommit_leftover (s : State) (c : CommitRecord) : (s.setCommit c).leftover = s.leftover := rfl
@[simp] theorem setCommit_freeCount (s : State) (c : CommitRecord) : (s.setCommit c).freeCount = s.freeCount := rfl
@[simp] theorem setCommit_map (s : State) (c : CommitRecord) : (s.setCommit c).map = s.map := rfl
@[simp] theorem setCommit_session (s : State) (c : CommitRecord) : (s.setCommit c).session = s.session := rfl
@[simp] theorem setCommit_commit (s : State) (c : CommitRecord) : (s.setCommit c).commit = c := rfl
@[simp] theorem setCommit_check (s : State) (c : CommitRecord) : (s.setCommit c).check = s.check := rfl
@[simp] theorem setCommit_reader (s : State) (c : CommitRecord) : (s.setCommit c).reader = s.reader := rfl
@[simp] theorem setCommit_log (s : State) (c : CommitRecord) : (s.setCommit c).log = s.log := rfl
@[simp] theorem setCommit_image (s : State) (c : CommitRecord) : (s.setCommit c).image = s.image := rfl
@[simp] theorem setCommit_seq (s : State) (c : CommitRecord) : (s.setCommit c).seq = s.seq := rfl
@[simp] theorem setCommit_flash (s : State) (c : CommitRecord) : (s.setCommit c).flash = s.flash := rfl
@[simp] theorem setCommit_hp0 (s : State) (c : CommitRecord) : (s.setCommit c).hp0 = s.hp0 := rfl
@[simp] theorem setCommit_hp1 (s : State) (c : CommitRecord) : (s.setCommit c).hp1 = s.hp1 := rfl
@[simp] theorem setCommit_faults (s : State) (c : CommitRecord) : (s.setCommit c).faults = s.faults := rfl

/-! ### State.setLog -/

@[simp] theorem setLog_pending (s : State) (l : LogUnit) : (s.setLog l).pending = s.pending := rfl
@[simp] theorem setLog_mem (s : State) (l : LogUnit) : (s.setLog l).mem = s.mem := rfl
@[simp] theorem setLog_leftover (s : State) (l : LogUnit) : (s.setLog l).leftover = s.leftover := rfl
@[simp] theorem setLog_freeCount (s : State) (l : LogUnit) : (s.setLog l).freeCount = s.freeCount := rfl
@[simp] theorem setLog_map (s : State) (l : LogUnit) : (s.setLog l).map = s.map := rfl
@[simp] theorem setLog_session (s : State) (l : LogUnit) : (s.setLog l).session = s.session := rfl
@[simp] theorem setLog_commit (s : State) (l : LogUnit) : (s.setLog l).commit = s.commit := rfl
@[simp] theorem setLog_check (s : State) (l : LogUnit) : (s.setLog l).check = s.check := rfl
@[simp] theorem setLog_reader (s : State) (l : LogUnit) : (s.setLog l).reader = s.reader := rfl
@[simp] theorem setLog_log (s : State) (l : LogUnit) : (s.setLog l).log = l := rfl
@[simp] theorem setLog_image (s : State) (l : LogUnit) : (s.setLog l).image = s.image := rfl
@[simp] theorem setLog_seq (s : State) (l : LogUnit) : (s.setLog l).seq = s.seq := rfl
@[simp] theorem setLog_flash (s : State) (l : LogUnit) : (s.setLog l).flash = s.flash := rfl
@[simp] theorem setLog_hp0 (s : State) (l : LogUnit) : (s.setLog l).hp0 = s.hp0 := rfl
@[simp] theorem setLog_hp1 (s : State) (l : LogUnit) : (s.setLog l).hp1 = s.hp1 := rfl
@[simp] theorem setLog_faults (s : State) (l : LogUnit) : (s.setLog l).faults = s.faults := rfl

/-! ### State.setImage -/

@[simp] theorem setImage_pending (s : State) (i : ImageUnit) : (s.setImage i).pending = s.pending := rfl
@[simp] theorem setImage_mem (s : State) (i : ImageUnit) : (s.setImage i).mem = s.mem := rfl
@[simp] theorem setImage_leftover (s : State) (i : ImageUnit) : (s.setImage i).leftover = s.leftover := rfl
@[simp] theorem setImage_freeCount (s : State) (i : ImageUnit) : (s.setImage i).freeCount = s.freeCount := rfl
@[simp] theorem setImage_map (s : State) (i : ImageUnit) : (s.setImage i).map = s.map := rfl
@[simp] theorem setImage_session (s : State) (i : ImageUnit) : (s.setImage i).session = s.session := rfl
@[simp] theorem setImage_commit (s : State) (i : ImageUnit) : (s.setImage i).commit = s.commit := rfl
@[simp] theorem setImage_check (s : State) (i : ImageUnit) : (s.setImage i).check = s.check := rfl
@[simp] theorem setImage_reader (s : State) (i : ImageUnit) : (s.setImage i).reader = s.reader := rfl
@[simp] theorem setImage_log (s : State) (i : ImageUnit) : (s.setImage i).log = s.log := rfl
@[simp] theorem setImage_image (s : State) (i : ImageUnit) : (s.setImage i).image = i := rfl
@[simp] theorem setImage_seq (s : State) (i : ImageUnit) : (s.setImage i).seq = s.seq := rfl
@[simp] theorem setImage_flash (s : State) (i : ImageUnit) : (s.setImage i).flash = s.flash := rfl
@[simp] theorem setImage_hp0 (s : State) (i : ImageUnit) : (s.setImage i).hp0 = s.hp0 := rfl
@[simp] theorem setImage_hp1 (s : State) (i : ImageUnit) : (s.setImage i).hp1 = s.hp1 := rfl
@[simp] theorem setImage_faults (s : State) (i : ImageUnit) : (s.setImage i).faults = s.faults := rfl

/-! ### State.setSeq -/

@[simp] theorem setSeq_pending (s : State) (q : Sequencer) : (s.setSeq q).pending = s.pending := rfl
@[simp] theorem setSeq_mem (s : State) (q : Sequencer) : (s.setSeq q).mem = s.mem := rfl
@[simp] theorem setSeq_leftover (s : State) (q : Sequencer) : (s.setSeq q).leftover = s.leftover := rfl
@[simp] theorem setSeq_freeCount (s : State) (q : Sequencer) : (s.setSeq q).freeCount = s.freeCount := rfl
@[simp] theorem setSeq_map (s : State) (q : Sequencer) : (s.setSeq q).map = s.map := rfl
@[simp] theorem setSeq_session (s : State) (q : Sequencer) : (s.setSeq q).session = s.session := rfl
@[simp] theorem setSeq_commit (s : State) (q : Sequencer) : (s.setSeq q).commit = s.commit := rfl
@[simp] theorem setSeq_check (s : State) (q : Sequencer) : (s.setSeq q).check = s.check := rfl
@[simp] theorem setSeq_reader (s : State) (q : Sequencer) : (s.setSeq q).reader = s.reader := rfl
@[simp] theorem setSeq_log (s : State) (q : Sequencer) : (s.setSeq q).log = s.log := rfl
@[simp] theorem setSeq_image (s : State) (q : Sequencer) : (s.setSeq q).image = s.image := rfl
@[simp] theorem setSeq_seq (s : State) (q : Sequencer) : (s.setSeq q).seq = q := rfl
@[simp] theorem setSeq_flash (s : State) (q : Sequencer) : (s.setSeq q).flash = s.flash := rfl
@[simp] theorem setSeq_hp0 (s : State) (q : Sequencer) : (s.setSeq q).hp0 = s.hp0 := rfl
@[simp] theorem setSeq_hp1 (s : State) (q : Sequencer) : (s.setSeq q).hp1 = s.hp1 := rfl
@[simp] theorem setSeq_faults (s : State) (q : Sequencer) : (s.setSeq q).faults = s.faults := rfl

/-! ### State.withPending -/

@[simp] theorem withPending_pending (s : State) (q : List Instr) : (s.withPending q).pending = q := rfl
@[simp] theorem withPending_mem (s : State) (q : List Instr) : (s.withPending q).mem = s.mem := rfl
@[simp] theorem withPending_leftover (s : State) (q : List Instr) : (s.withPending q).leftover = s.leftover := rfl
@[simp] theorem withPending_freeCount (s : State) (q : List Instr) : (s.withPending q).freeCount = s.freeCount := rfl
@[simp] theorem withPending_map (s : State) (q : List Instr) : (s.withPending q).map = s.map := rfl
@[simp] theorem withPending_session (s : State) (q : List Instr) : (s.withPending q).session = s.session := rfl
@[simp] theorem withPending_commit (s : State) (q : List Instr) : (s.withPending q).commit = s.commit := rfl
@[simp] theorem withPending_check (s : State) (q : List Instr) : (s.withPending q).check = s.check := rfl
@[simp] theorem withPending_reader (s : State) (q : List Instr) : (s.withPending q).reader = s.reader := rfl
@[simp] theorem withPending_log (s : State) (q : List Instr) : (s.withPending q).log = s.log := rfl
@[simp] theorem withPending_image (s : State) (q : List Instr) : (s.withPending q).image = s.image := rfl
@[simp] theorem withPending_seq (s : State) (q : List Instr) : (s.withPending q).seq = s.seq := rfl
@[simp] theorem withPending_flash (s : State) (q : List Instr) : (s.withPending q).flash = s.flash := rfl
@[simp] theorem withPending_hp0 (s : State) (q : List Instr) : (s.withPending q).hp0 = s.hp0 := rfl
@[simp] theorem withPending_hp1 (s : State) (q : List Instr) : (s.withPending q).hp1 = s.hp1 := rfl
@[simp] theorem withPending_faults (s : State) (q : List Instr) : (s.withPending q).faults = s.faults := rfl

/-! ### State.setCheck -/

@[simp] theorem setCheck_pending (s : State) (c : CheckUnit) (r : Option Reader) : (s.setCheck c r).pending = s.pending := rfl
@[simp] theorem setCheck_mem (s : State) (c : CheckUnit) (r : Option Reader) : (s.setCheck c r).mem = s.mem := rfl
@[simp] theorem setCheck_leftover (s : State) (c : CheckUnit) (r : Option Reader) : (s.setCheck c r).leftover = s.leftover := rfl
@[simp] theorem setCheck_freeCount (s : State) (c : CheckUnit) (r : Option Reader) : (s.setCheck c r).freeCount = s.freeCount := rfl
@[simp] theorem setCheck_map (s : State) (c : CheckUnit) (r : Option Reader) : (s.setCheck c r).map = s.map := rfl
@[simp] theorem setCheck_session (s : State) (c : CheckUnit) (r : Option Reader) : (s.setCheck c r).session = s.session := rfl
@[simp] theorem setCheck_commit (s : State) (c : CheckUnit) (r : Option Reader) : (s.setCheck c r).commit = s.commit := rfl
@[simp] theorem setCheck_check (s : State) (c : CheckUnit) (r : Option Reader) : (s.setCheck c r).check = c := rfl
@[simp] theorem setCheck_reader (s : State) (c : CheckUnit) (r : Option Reader) : (s.setCheck c r).reader = r := rfl
@[simp] theorem setCheck_log (s : State) (c : CheckUnit) (r : Option Reader) : (s.setCheck c r).log = s.log := rfl
@[simp] theorem setCheck_image (s : State) (c : CheckUnit) (r : Option Reader) : (s.setCheck c r).image = s.image := rfl
@[simp] theorem setCheck_seq (s : State) (c : CheckUnit) (r : Option Reader) : (s.setCheck c r).seq = s.seq := rfl
@[simp] theorem setCheck_flash (s : State) (c : CheckUnit) (r : Option Reader) : (s.setCheck c r).flash = s.flash := rfl
@[simp] theorem setCheck_hp0 (s : State) (c : CheckUnit) (r : Option Reader) : (s.setCheck c r).hp0 = s.hp0 := rfl
@[simp] theorem setCheck_hp1 (s : State) (c : CheckUnit) (r : Option Reader) : (s.setCheck c r).hp1 = s.hp1 := rfl
@[simp] theorem setCheck_faults (s : State) (c : CheckUnit) (r : Option Reader) : (s.setCheck c r).faults = s.faults := rfl

/-! ### raiseFault -/

@[simp] theorem raiseFault_pending (m : FaultMember) (s : State) : (raiseFault m s).pending = s.pending := rfl
@[simp] theorem raiseFault_mem (m : FaultMember) (s : State) : (raiseFault m s).mem = s.mem := rfl
@[simp] theorem raiseFault_leftover (m : FaultMember) (s : State) : (raiseFault m s).leftover = s.leftover := rfl
@[simp] theorem raiseFault_freeCount (m : FaultMember) (s : State) : (raiseFault m s).freeCount = s.freeCount := rfl
@[simp] theorem raiseFault_map (m : FaultMember) (s : State) : (raiseFault m s).map = s.map := rfl
@[simp] theorem raiseFault_session (m : FaultMember) (s : State) : (raiseFault m s).session = s.session := rfl
@[simp] theorem raiseFault_commit (m : FaultMember) (s : State) : (raiseFault m s).commit = s.commit := rfl
@[simp] theorem raiseFault_check (m : FaultMember) (s : State) : (raiseFault m s).check = s.check := rfl
@[simp] theorem raiseFault_reader (m : FaultMember) (s : State) : (raiseFault m s).reader = s.reader := rfl
@[simp] theorem raiseFault_log (m : FaultMember) (s : State) : (raiseFault m s).log = s.log := rfl
@[simp] theorem raiseFault_image (m : FaultMember) (s : State) : (raiseFault m s).image = s.image := rfl
@[simp] theorem raiseFault_seq (m : FaultMember) (s : State) : (raiseFault m s).seq = s.seq := rfl
@[simp] theorem raiseFault_flash (m : FaultMember) (s : State) : (raiseFault m s).flash = s.flash := rfl
@[simp] theorem raiseFault_hp0 (m : FaultMember) (s : State) : (raiseFault m s).hp0 = s.hp0 := rfl
@[simp] theorem raiseFault_hp1 (m : FaultMember) (s : State) : (raiseFault m s).hp1 = s.hp1 := rfl
@[simp] theorem raiseFault_faults (m : FaultMember) (s : State) : (raiseFault m s).faults = s.faults.add m := rfl

/-! ### State.setPort -/

@[simp] theorem setPort_pending (s : State) (p : Port) (q : HostPort) : (s.setPort p q).pending = s.pending := by
  cases p <;> rfl
@[simp] theorem setPort_mem (s : State) (p : Port) (q : HostPort) : (s.setPort p q).mem = s.mem := by
  cases p <;> rfl
@[simp] theorem setPort_leftover (s : State) (p : Port) (q : HostPort) : (s.setPort p q).leftover = s.leftover := by
  cases p <;> rfl
@[simp] theorem setPort_freeCount (s : State) (p : Port) (q : HostPort) : (s.setPort p q).freeCount = s.freeCount := by
  cases p <;> rfl
@[simp] theorem setPort_map (s : State) (p : Port) (q : HostPort) : (s.setPort p q).map = s.map := by
  cases p <;> rfl
@[simp] theorem setPort_session (s : State) (p : Port) (q : HostPort) : (s.setPort p q).session = s.session := by
  cases p <;> rfl
@[simp] theorem setPort_commit (s : State) (p : Port) (q : HostPort) : (s.setPort p q).commit = s.commit := by
  cases p <;> rfl
@[simp] theorem setPort_check (s : State) (p : Port) (q : HostPort) : (s.setPort p q).check = s.check := by
  cases p <;> rfl
@[simp] theorem setPort_reader (s : State) (p : Port) (q : HostPort) : (s.setPort p q).reader = s.reader := by
  cases p <;> rfl
@[simp] theorem setPort_log (s : State) (p : Port) (q : HostPort) : (s.setPort p q).log = s.log := by
  cases p <;> rfl
@[simp] theorem setPort_image (s : State) (p : Port) (q : HostPort) : (s.setPort p q).image = s.image := by
  cases p <;> rfl
@[simp] theorem setPort_seq (s : State) (p : Port) (q : HostPort) : (s.setPort p q).seq = s.seq := by
  cases p <;> rfl
@[simp] theorem setPort_flash (s : State) (p : Port) (q : HostPort) : (s.setPort p q).flash = s.flash := by
  cases p <;> rfl
@[simp] theorem setPort_faults (s : State) (p : Port) (q : HostPort) : (s.setPort p q).faults = s.faults := by
  cases p <;> rfl
@[simp] theorem setPort_hp0 (s : State) (p : Port) (q : HostPort) :
    (s.setPort p q).hp0 = if p = .hp0 then q else s.hp0 := by
  cases p <;> rfl
@[simp] theorem setPort_hp1 (s : State) (p : Port) (q : HostPort) :
    (s.setPort p q).hp1 = if p = .hp1 then q else s.hp1 := by
  cases p <;> rfl
@[simp] theorem port_setPort (s : State) (p : Port) (q : HostPort) : (s.setPort p q).port p = q := by
  cases p <;> rfl
theorem port_setPort_of_ne {p r : Port} (h : r ≠ p) (s : State) (q : HostPort) : (s.setPort p q).port r = s.port r := by
  cases p <;> cases r <;> first | rfl | exact absurd rfl h
@[simp] theorem setPort_port (s : State) (p : Port) : s.setPort p (s.port p) = s := by
  cases p <;> rfl
@[simp] theorem setPort_setPort (s : State) (p : Port) (q r : HostPort) : (s.setPort p q).setPort p r = s.setPort p r := by
  cases p <;> rfl
@[simp] theorem otherPort_otherPort (p : Port) : otherPort (otherPort p) = p := by
  cases p <;> rfl
theorem otherPort_ne (p : Port) : otherPort p ≠ p := by
  cases p <;> decide
@[simp] theorem port_setPort_other (s : State) (p : Port) (q : HostPort) :
    (s.setPort p q).port (otherPort p) = s.port (otherPort p) :=
  port_setPort_of_ne (otherPort_ne p) s q

/-! ### The ports after the other replacements -/

@[simp] theorem port_setEntries (s : State) (es : List MapEntry) (p : Port) : (s.setEntries es).port p = s.port p := by
  cases p <;> rfl
@[simp] theorem port_setMem (s : State) (m : List Host.Cell) (p : Port) : (s.setMem m).port p = s.port p := by
  cases p <;> rfl
@[simp] theorem port_setFlash (s : State) (f : FlashPort) (p : Port) : (s.setFlash f).port p = s.port p := by
  cases p <;> rfl
@[simp] theorem port_setSession (s : State) (x : Session) (p : Port) : (s.setSession x).port p = s.port p := by
  cases p <;> rfl
@[simp] theorem port_setCommit (s : State) (c : CommitRecord) (p : Port) : (s.setCommit c).port p = s.port p := by
  cases p <;> rfl
@[simp] theorem port_setLog (s : State) (l : LogUnit) (p : Port) : (s.setLog l).port p = s.port p := by
  cases p <;> rfl
@[simp] theorem port_setImage (s : State) (i : ImageUnit) (p : Port) : (s.setImage i).port p = s.port p := by
  cases p <;> rfl
@[simp] theorem port_setSeq (s : State) (q : Sequencer) (p : Port) : (s.setSeq q).port p = s.port p := by
  cases p <;> rfl
@[simp] theorem port_withPending (s : State) (q : List Instr) (p : Port) : (s.withPending q).port p = s.port p := by
  cases p <;> rfl
@[simp] theorem port_setCheck (s : State) (c : CheckUnit) (r : Option Reader) (p : Port) :
    (s.setCheck c r).port p = s.port p := by
  cases p <;> rfl
@[simp] theorem port_raiseFault (m : FaultMember) (s : State) (p : Port) : (raiseFault m s).port p = s.port p := by
  cases p <;> rfl

/-! ### Slots -/

@[simp] theorem setSlot_pointer (f : FlashPort) (c : Client) (x : Slot) : (f.setSlot c x).pointer = f.pointer := by
  cases c <;> rfl
@[simp] theorem setSlot_transfer (f : FlashPort) (c : Client) (x : Slot) : (f.setSlot c x).transfer = f.transfer := by
  cases c <;> rfl
@[simp] theorem setSlot_erase (f : FlashPort) (c : Client) (x : Slot) : (f.setSlot c x).erase = f.erase := by
  cases c <;> rfl
@[simp] theorem setSlot_resetting (f : FlashPort) (c : Client) (x : Slot) : (f.setSlot c x).resetting = f.resetting := by
  cases c <;> rfl
@[simp] theorem slot_setSlot (f : FlashPort) (c : Client) (x : Slot) : (f.setSlot c x).slot c = x := by
  cases c <;> rfl
theorem slot_setSlot_of_ne {c d : Client} (h : d ≠ c) (f : FlashPort) (x : Slot) : (f.setSlot c x).slot d = f.slot d := by
  cases c <;> cases d <;> first | rfl | exact absurd rfl h

end Sys2Proof.Machine
end

