-- ==== Sys2Proof/Laws/Flash.lean ====
section
/-!
SUPPORT. The soundness of the Flash Port (Safety) as a proposition, and the steps of the Flash Port that keep it.
-/

namespace Sys2Proof.Machine

/-- R130, R133, R136, R137: what FlashPort.sound checks, stated for every slot, transfer and erase. -/
structure FlashSound (f : FlashPort) : Prop where
  slots : ∀ c a, f.slot c = .granted a →
    (∃ t, f.transfer = some t ∧ t.client = c ∧ t.access = a) ∨ (∃ e, f.erase = some e ∧ e.client = c ∧ e.access = a)
  tr : ∀ t, f.transfer = some t →
    f.slot t.client = .granted t.access ∧ f.resetting = false ∧
      ((∃ a n, t.access = .read a n) ∨ ((∃ a d, t.access = .program a d) ∧ f.erase = none)) ∧
      (∀ e, f.erase = some e → e.condition = .suspended)
  er : ∀ e, f.erase = some e →
    f.slot e.client = .granted e.access ∧ f.resetting = false ∧ e.suspends ≤ 32 ∧
      (e.condition = .suspending → e.suspends < 32)

/-- The Bool that the statements speak of says the same. -/
theorem flashSound_iff (f : FlashPort) : f.sound = true ↔ FlashSound f := by
  have hs : (f.slotSound .hp0 = true ∧ f.slotSound .hp1 = true ∧ f.slotSound .log = true ∧ f.slotSound .work = true) ↔
      ∀ c a,
    f.slot c = .granted a → (∃ t, f.transfer = some t ∧ t.client = c ∧ t.access = a) ∨ (∃ e, f.erase = some e ∧
        e.client = c ∧
      e.access = a) := by
    have h1 : ∀ c, f.slotSound c = true ↔ ∀ a, f.slot c = .granted a → (∃ t, f.transfer = some t ∧ t.client = c ∧
      t.access = a) ∨ (∃ e, f.erase = some e ∧ e.client = c ∧ e.access = a) := by
      intro c; unfold FlashPort.slotSound
      cases hc : f.slot c <;> cases ht : f.transfer <;> cases he : f.erase <;> simp
    constructor
    · rintro ⟨a, b, c, d⟩ x
      cases x <;> (first | exact (h1 _).1 a | exact (h1 _).1 b | exact (h1 _).1 c | exact (h1 _).1 d)
    · intro h; exact ⟨(h1 _).2 (h _), (h1 _).2 (h _), (h1 _).2 (h _), (h1 _).2 (h _)⟩
  have ho : f.operationsSound = true ↔ (∀ t, f.transfer = some t → f.slot t.client = .granted t.access ∧
      f.resetting = false ∧
        ((∃ a n, t.access = .read a n) ∨ ((∃ a d, t.access = .program a d) ∧ f.erase = none)) ∧ (∀ e,
          f.erase = some e → e.condition = .suspended)) ∧ (∀ e, f.erase = some e → f.slot e.client = .granted e.access ∧
            f.resetting = false ∧ e.suspends ≤ 32 ∧ (e.condition = .suspending → e.suspends < 32)) := by
    unfold FlashPort.operationsSound
    cases ht : f.transfer with
    | none => cases he : f.erase <;> simp [Slot.holds, Config.suspendBudget]; grind
    | some t =>
      cases ha : t.access <;> cases he : f.erase <;> simp [Slot.holds, Config.suspendBudget, ha] <;> grind
  unfold FlashPort.sound
  simp only [Bool.and_eq_true]
  constructor
  · rintro ⟨⟨⟨⟨a,b⟩,c⟩,d⟩,e⟩
    exact ⟨hs.1 ⟨a,b,c,d⟩, (ho.1 e).1, (ho.1 e).2⟩
  · intro h
    obtain ⟨a,b,c,d⟩ := hs.2 h.slots
    exact ⟨⟨⟨⟨a,b⟩,c⟩,d⟩, ho.2 ⟨h.tr, h.er⟩⟩

theorem slot_setSlot_ite (f : FlashPort) (c d : Client) (x : Slot) :
    (f.setSlot c x).slot d = if d = c then x else f.slot d := by
  by_cases h : d = c
  · subst h; simp
  · simp [h, slot_setSlot_of_ne h]

theorem slot_congr {f g : FlashPort} (h0 : f.slotHp0 = g.slotHp0) (h1 : f.slotHp1 = g.slotHp1)
    (h2 : f.slotLog = g.slotLog) (h3 : f.slotWork = g.slotWork) (c) : f.slot c = g.slot c := by
  cases c <;> assumption

/-- The condition and the suspend count of an erase in progress may change within the budget, with nothing in flight or
the erase SUSPENDED. -/
theorem flashSound_condition {f : FlashPort} {e : FlashErase} (h : FlashSound f) (he : f.erase = some e)
    (cnd : EraseCondition) (k : Nat) (hk : k ≤ 32) (hk2 : cnd = .suspending → k < 32) (ht : f.transfer = none ∨
        cnd = .suspended) :
   FlashSound { f with erase := some { e with condition := cnd, suspends := k } } := by
  have hsl : ∀ c, ({ f with erase := some { e with condition := cnd, suspends := k } } : FlashPort).slot c = f.slot c :=
      fun c => slot_congr rfl rfl rfl rfl c
  have hacc : ∀ cnd k, ({ e with condition := cnd, suspends := k } : FlashErase).access = e.access := fun _ _ => rfl
  refine ⟨?_, ?_, ?_⟩
  · intro c a hc
    rw [hsl] at hc
    rcases h.slots c a hc with h1 | ⟨e', h1, h2, h3⟩
    · exact .inl h1
    · rw [he] at h1; cases h1; exact .inr ⟨_, rfl, h2, h3⟩
  · intro t h1
    obtain ⟨a1, a2, a3, a4⟩ := h.tr t h1
    refine ⟨by rw [hsl]; exact a1, a2, ?_, ?_⟩
    · rcases a3 with a3 | ⟨_, a3⟩
      · exact .inl a3
      · rw [he] at a3; cases a3
    · intro e' he'; cases he'
      rcases ht with ht | ht
      · rw [ht] at h1; cases h1
      · exact ht
  · intro e' he'
    have := h.er e he
    cases he'
    refine ⟨by rw [hsl]; exact this.1, this.2.1, hk, hk2⟩

/-- R137, R139, R140. -/
theorem flashSound_settle {f : FlashPort} (h : FlashSound f) : FlashSound f.settle := by
  unfold FlashPort.settle
  split
  · exact h
  · rename_i e he
    have := h.er e he
    split
    · rename_i hc
      split
      · rename_i h1
        refine flashSound_condition h he .suspending e.suspends this.2.2.1 (fun _ => h1.1) (.inl ?_)
        cases ht : f.transfer with
        | none => rfl
        | some t => have := (h.tr t ht).2.2.2 e he; rw [hc] at this; cases this
      · exact h
    · exact h
    · split
      · rename_i h1
        exact flashSound_condition h he .running e.suspends this.2.2.1 (by simp) (.inl h1.1)
      · exact h

/-- A slot that is not GRANTED may become anything but GRANTED. -/
theorem flashSound_setSlot {f : FlashPort} (h : FlashSound f) (c x) (h1 : ∀ a, f.slot c ≠ .granted a) (h2 : ∀ a,
  x ≠ .granted a) : FlashSound (f.setSlot c x) := by
  refine ⟨?_, ?_, ?_⟩
  · intro d a hd
    rw [slot_setSlot_ite] at hd
    split at hd
    · exact absurd hd (h2 a)
    · simpa using h.slots d a hd
  · intro t ht
    simp at ht
    have := h.tr t ht
    rw [slot_setSlot_ite]
    have hne : t.client ≠ c := fun hh => h1 _ (hh ▸ this.1)
    simpa [hne] using this
  · intro t ht
    simp at ht
    have := h.er t ht
    rw [slot_setSlot_ite]
    have hne : t.client ≠ c := fun hh => h1 _ (hh ▸ this.1)
    simpa [hne] using this

/-- R130. -/
theorem flashSound_place {f : FlashPort} (h : FlashSound f) (c a) : FlashSound (f.place c a) := by
  unfold FlashPort.place; split
  · rename_i hc; exact flashSound_settle (flashSound_setSlot h c _ (by simp [hc]) (by simp))
  · exact h

/-- R130. -/
theorem flashSound_withdraw {f : FlashPort} (h : FlashSound f) (c) : FlashSound (f.withdraw c) := by
  unfold FlashPort.withdraw; split
  · rename_i hc; refine flashSound_settle (flashSound_setSlot h c _ ?_ (by simp)); intro a ha; rw [ha] at hc; simp [Slot.pendingRead] at hc
  · exact h

/-- R134, R135. -/
theorem flashSound_endTransfer {f : FlashPort} (h : FlashSound f) {t} (ht : f.transfer = some t) : FlashSound
    (f.endTransfer t.client) := by
  have h0 := h.tr t ht
  have hsl : ∀ c, (f.endTransfer t.client).slot c = (f.setSlot t.client .empty).slot c :=
      fun c => slot_congr rfl rfl rfl rfl c
  have hne : ∀ e, f.erase = some e → e.client ≠ t.client := by
    intro e he hh
    have h1 := (h.er e he).1
    rw [hh, h0.1] at h1
    injection h1 with h1
    rcases h0.2.2.1 with ⟨a, n, h2⟩ | ⟨⟨a, d, h2⟩, h3⟩
    · rw [h2] at h1; unfold FlashErase.access at h1; split at h1 <;> cases h1
    · rw [he] at h3; cases h3
  refine ⟨?_, ?_, ?_⟩
  · intro d a hd
    rw [hsl, slot_setSlot_ite] at hd
    split at hd
    · cases hd
    · rename_i hne
      rcases h.slots d a hd with ⟨t', h1, h2, h3⟩ | h1
      · rw [ht] at h1; cases h1; exact absurd h2.symm hne
      · right; simpa [FlashPort.endTransfer] using h1
  · intro t' h'; simp [FlashPort.endTransfer] at h'
  · intro e he
    have he' : f.erase = some e := by simpa [FlashPort.endTransfer] using he
    have := h.er e he'
    rw [hsl, slot_setSlot_ite, if_neg (hne e he')]
    simpa [FlashPort.endTransfer] using this

/-- R135. -/
theorem flashSound_endErase {f : FlashPort} (h : FlashSound f) {e} (he : f.erase = some e) (hc : f.transfer = none) :
    FlashSound (f.endErase e.client) := by
  have hsl : ∀ c, (f.endErase e.client).slot c = (f.setSlot e.client .empty).slot c := fun c => slot_congr rfl rfl rfl rfl c
  refine ⟨?_, ?_, ?_⟩
  · intro d a hd
    rw [hsl, slot_setSlot_ite] at hd
    split at hd
    · cases hd
    · rename_i hne
      rcases h.slots d a hd with ⟨t', h1, h2, h3⟩ | ⟨e', h1, h2, h3⟩
      · rw [hc] at h1; cases h1
      · rw [he] at h1; cases h1; exact absurd h2.symm hne
  · intro t' h'; simp [FlashPort.endErase, hc] at h'
  · intro e' h'; simp [FlashPort.endErase] at h'

/-- R136: a flash reset begins with nothing in flight or in progress. -/
theorem flashSound_resetting {f : FlashPort} (h : FlashSound f) (b) (hb : b = true → f.transfer = none ∧ f.erase = none) :
    FlashSound { f with resetting := b } := by
  have hsl : ∀ c, ({ f with resetting := b } : FlashPort).slot c = f.slot c := fun c => slot_congr rfl rfl rfl rfl c
  refine ⟨?_, ?_, ?_⟩
  · intro c a hc; exact h.slots c a (by rw [← hsl]; exact hc)
  · intro t ht; have := h.tr t ht
    rw [hsl]; cases b
    · exact ⟨this.1, rfl, this.2.2⟩
    · rw [(hb rfl).1] at ht; cases ht
  · intro t ht; have := h.er t ht
    rw [hsl]; cases b
    · exact ⟨this.1, rfl, this.2.2⟩
    · rw [(hb rfl).2] at ht; cases ht

/-- R133. -/
theorem flashSound_grant {f : FlashPort} (h : FlashSound f) (c a) (hc : f.slot c = .pending a) (ha : f.admits a = true) :
    FlashSound (f.grant c a) := by
  have hid : f.transfer = none ∧ f.resetting = false ∧ (f.erase = none ∨ (a.isRead = true ∧ ∃ e, f.erase = some e ∧
    e.condition = .suspended)) := by
    unfold FlashPort.admits FlashPort.idle at ha
    cases he : f.erase <;> cases ht : f.transfer <;> cases hr : f.resetting <;> simp_all
  have base : ∀ (g : FlashPort), (∀ d, g.slot d = (f.setSlot c (.granted a)).slot d) → g.resetting = false →
      ((g.transfer = some ⟨c, a, 0⟩ ∧ ((∃ x n, a = .read x n) ∨ ((∃ x n, a = .program x n) ∧ g.erase = none)) ∧
        g.erase = f.erase) ∨ (g.transfer = none ∧ f.erase = none ∧ ∃ e, g.erase = some e ∧ e.client = c ∧ e.access = a ∧
          e.suspends = 0)) → FlashSound g := by
    intro g hg hr hh
    refine ⟨?_, ?_, ?_⟩
    · intro d x hd
      rw [hg, slot_setSlot_ite] at hd
      split at hd
      · rename_i hdc; subst hdc; cases hd
        rcases hh with ⟨h1, _⟩ | ⟨_, _, e, h1, h2, h3, h4⟩
        · exact .inl ⟨_, h1, rfl, rfl⟩
        · exact .inr ⟨_, h1, h2, h3⟩
      · rcases h.slots d x hd with ⟨t, h1, _⟩ | ⟨e, h1, h2⟩
        · rw [hid.1] at h1; cases h1
        · rcases hh with ⟨_, _, h3⟩ | ⟨_, h3, _⟩
          · exact .inr ⟨e, h3 ▸ h1, h2⟩
          · rw [h3] at h1; cases h1
    · intro t ht
      rcases hh with ⟨h1, h2, h3⟩ | ⟨h1, _⟩
      · rw [h1] at ht; cases ht
        refine ⟨by rw [hg, slot_setSlot_ite, if_pos rfl], hr, h2, ?_⟩
        intro e he
        rw [h3] at he
        rcases hid.2.2 with h4 | ⟨_, e', h4, h5⟩
        · rw [h4] at he; cases he
        · rw [h4] at he; cases he; exact h5
      · rw [h1] at ht; cases ht
    · intro e he
      rcases hh with ⟨h1, h2, h3⟩ | ⟨h1, h2, e', h3, h4, h5, h6⟩
      · rw [h3] at he
        have := h.er e he
        have hne : e.client ≠ c := fun q => by rw [q, hc] at this; cases this.1
        rw [hg, slot_setSlot_ite, if_neg hne]; exact ⟨this.1, hr, this.2.2⟩
      · rw [h3] at he; cases he
        rw [hg, slot_setSlot_ite, if_pos h4]
        exact ⟨by rw [h5], hr, by omega, fun _ => by omega⟩
  unfold FlashPort.grant
  cases a with
  | read x n => exact base _ (fun d => slot_congr rfl rfl rfl rfl d) (by simpa using hid.2.1) (.inl ⟨rfl, .inl ⟨_, _, rfl⟩,
  by simp⟩)
  | program x d =>
    have he : f.erase = none := by rcases hid.2.2 with h | h; exact h; simp [Access.isRead] at h
    exact base _ (fun d => slot_congr rfl rfl rfl rfl d) (by simpa using hid.2.1) (.inl ⟨rfl, .inr ⟨⟨_, _, rfl⟩,
    by simpa using he⟩, by simp⟩)
  | sectorErase x =>
    have he : f.erase = none := by rcases hid.2.2 with h | h; exact h; simp [Access.isRead] at h
    exact flashSound_settle (base _ (fun d => slot_congr rfl rfl rfl rfl d) (by simpa using hid.2.1) (.inr ⟨by simpa using hid.1, he, _, rfl, rfl, rfl, rfl⟩))
  | blockErase x =>
    have he : f.erase = none := by rcases hid.2.2 with h | h; exact h; simp [Access.isRead] at h
    exact flashSound_settle (base _ (fun d => slot_congr rfl rfl rfl rfl d) (by simpa using hid.2.1) (.inr ⟨by simpa using hid.1, he, _, rfl, rfl, rfl, rfl⟩))

theorem readInFlight_some {f : FlashPort} {c a n} (h : f.readInFlight c = some (a, n)) : ∃ t, f.transfer = some t ∧
  t.client = c ∧ t.access = .read a n := by
  unfold FlashPort.readInFlight at h
  repeat' split at h
  all_goals simp_all

theorem programInFlight_some {f : FlashPort} {c a n} (h : f.programInFlight = some (c, a, n)) : ∃ t, f.transfer = some t ∧
  t.client = c ∧ t.access = .program a n := by
  unfold FlashPort.programInFlight at h
  repeat' split at h
  all_goals simp_all

theorem eraseRunning_some {f : FlashPort} {e} (h : f.eraseRunning = some e) : f.erase = some e ∧
    e.condition ≠ .suspended := by
  unfold FlashPort.eraseRunning at h
  repeat' split at h
  all_goals simp_all

theorem flashSound_endRead {c : Client} {a n : Nat} {s : State} (h : FlashSound s.flash)
    (hr : s.flash.readInFlight c = some (a, n)) : FlashSound (endRead c a n s).flash := by
  obtain ⟨t, h1, h2, _⟩ := readInFlight_some hr
  subst h2
  exact flashSound_endTransfer h h1

theorem flashSound_lookAfterRead {s : State} (h : FlashSound s.flash) : FlashSound (lookAfterRead s).flash :=
  flashSound_settle h

end Sys2Proof.Machine
end

