-- ==== Sys2Proof/Laws/Keeps.lean ====
section
/-!
SUPPORT. What each shared operation leaves as it was: one lemma for each operation, a conjunction that simp takes as one
rewrite rule for each field. A field that is not listed may change.
-/

namespace Sys2Proof.Machine

@[simp] theorem place_keeps (c : Client) (a : Access) (s : State) :
    (place c a s).pending = s.pending ∧ (place c a s).mem = s.mem ∧ (place c a s).leftover = s.leftover
    ∧ (place c a s).freeCount = s.freeCount ∧ (place c a s).map = s.map ∧ (place c a s).session = s.session
    ∧ (place c a s).commit = s.commit ∧ (place c a s).check = s.check ∧ (place c a s).reader = s.reader
    ∧ (place c a s).log = s.log ∧ (place c a s).image = s.image ∧ (place c a s).seq = s.seq
    ∧ (place c a s).faults = s.faults ∧ (∀ r, (place c a s).port r = s.port r) := by
  and_intros <;> first | rfl | (intro r; cases r <;> rfl)

@[simp] theorem endRead_keeps (c : Client) (a n : Nat) (s : State) :
    (endRead c a n s).pending = s.pending
    ∧ (endRead c a n s).mem = s.mem
    ∧ (endRead c a n s).leftover = s.leftover
    ∧ (endRead c a n s).map = s.map
    ∧ (endRead c a n s).session = s.session
    ∧ (endRead c a n s).commit = s.commit
    ∧ (endRead c a n s).check = s.check
    ∧ (endRead c a n s).reader = s.reader
    ∧ (endRead c a n s).log = s.log
    ∧ (endRead c a n s).image = s.image
    ∧ (endRead c a n s).seq = s.seq
    ∧ (endRead c a n s).faults = s.faults
    ∧ (∀ r, (endRead c a n s).port r = s.port r) := by
  and_intros <;> first | rfl | (intro r; cases r <;> rfl)

@[simp] theorem lookAfterRead_keeps (s : State) :
    (lookAfterRead s).pending = s.pending
    ∧ (lookAfterRead s).mem = s.mem
    ∧ (lookAfterRead s).leftover = s.leftover
    ∧ (lookAfterRead s).freeCount = s.freeCount
    ∧ (lookAfterRead s).map = s.map
    ∧ (lookAfterRead s).session = s.session
    ∧ (lookAfterRead s).commit = s.commit
    ∧ (lookAfterRead s).check = s.check
    ∧ (lookAfterRead s).reader = s.reader
    ∧ (lookAfterRead s).log = s.log
    ∧ (lookAfterRead s).image = s.image
    ∧ (lookAfterRead s).seq = s.seq
    ∧ (lookAfterRead s).faults = s.faults
    ∧ (∀ r, (lookAfterRead s).port r = s.port r) := by
  and_intros <;> first | rfl | (intro r; cases r <;> rfl)

@[simp] theorem finishRead_keeps (c : Client) (a n : Nat) (s : State) :
    (finishRead c a n s).pending = s.pending ∧ (finishRead c a n s).mem = s.mem
    ∧ (finishRead c a n s).leftover = s.leftover ∧ (finishRead c a n s).map = s.map
    ∧ (finishRead c a n s).session = s.session ∧ (finishRead c a n s).commit = s.commit
    ∧ (finishRead c a n s).check = s.check ∧ (finishRead c a n s).reader = s.reader
    ∧ (finishRead c a n s).log = s.log ∧ (finishRead c a n s).image = s.image ∧ (finishRead c a n s).seq = s.seq
    ∧ (finishRead c a n s).faults = s.faults ∧ (∀ r, (finishRead c a n s).port r = s.port r) := by
  and_intros <;> first | rfl | (intro r; cases r <;> rfl)

@[simp] theorem finishProgram_keeps (c : Client) (a : Nat) (data : List Byte) (left : Remains) (s : State) :
    (finishProgram c a data left s).pending = s.pending ∧ (finishProgram c a data left s).leftover = s.leftover
    ∧ (finishProgram c a data left s).freeCount = s.freeCount ∧ (finishProgram c a data left s).map = s.map
    ∧ (finishProgram c a data left s).session = s.session ∧ (finishProgram c a data left s).commit = s.commit
    ∧ (finishProgram c a data left s).check = s.check ∧ (finishProgram c a data left s).reader = s.reader
    ∧ (finishProgram c a data left s).log = s.log ∧ (finishProgram c a data left s).image = s.image
    ∧ (finishProgram c a data left s).seq = s.seq ∧ (finishProgram c a data left s).faults = s.faults
    ∧ (∀ r, (finishProgram c a data left s).port r = s.port r) := by
  and_intros <;> first | rfl | (intro r; cases r <;> rfl)

@[simp] theorem finishErase_keeps (e : FlashErase) (left : Remains) (s : State) :
    (finishErase e left s).pending = s.pending ∧ (finishErase e left s).leftover = s.leftover
    ∧ (finishErase e left s).freeCount = s.freeCount ∧ (finishErase e left s).map = s.map
    ∧ (finishErase e left s).session = s.session ∧ (finishErase e left s).commit = s.commit
    ∧ (finishErase e left s).check = s.check ∧ (finishErase e left s).reader = s.reader
    ∧ (finishErase e left s).log = s.log ∧ (finishErase e left s).image = s.image
    ∧ (finishErase e left s).seq = s.seq ∧ (finishErase e left s).faults = s.faults
    ∧ (∀ r, (finishErase e left s).port r = s.port r) := by
  and_intros <;> first | rfl | (intro r; cases r <;> rfl)

@[simp] theorem updateEntry_keeps (seg : Nat) (f : MapEntry → MapEntry) (s : State) :
    (updateEntry seg f s).pending = s.pending ∧ (updateEntry seg f s).mem = s.mem
    ∧ (updateEntry seg f s).leftover = s.leftover ∧ (updateEntry seg f s).freeCount = s.freeCount
    ∧ (updateEntry seg f s).map.epoch = s.map.epoch ∧ (updateEntry seg f s).map.pinned = s.map.pinned
    ∧ (updateEntry seg f s).map.switch = s.map.switch ∧ (updateEntry seg f s).session = s.session
    ∧ (updateEntry seg f s).commit = s.commit ∧ (updateEntry seg f s).check = s.check
    ∧ (updateEntry seg f s).reader = s.reader ∧ (updateEntry seg f s).log = s.log
    ∧ (updateEntry seg f s).image = s.image ∧ (updateEntry seg f s).seq = s.seq
    ∧ (updateEntry seg f s).flash = s.flash ∧ (updateEntry seg f s).faults = s.faults
    ∧ (∀ r, (updateEntry seg f s).port r = s.port r) := by
  and_intros <;> first | rfl | (intro r; cases r <;> rfl)

@[simp] theorem updatePort_keeps (p : Port) (f : HostPort → HostPort) (s : State) :
    (updatePort p f s).pending = s.pending ∧ (updatePort p f s).mem = s.mem
    ∧ (updatePort p f s).leftover = s.leftover ∧ (updatePort p f s).freeCount = s.freeCount
    ∧ (updatePort p f s).map = s.map ∧ (updatePort p f s).session = s.session ∧ (updatePort p f s).commit = s.commit
    ∧ (updatePort p f s).check = s.check ∧ (updatePort p f s).reader = s.reader ∧ (updatePort p f s).log = s.log
    ∧ (updatePort p f s).image = s.image ∧ (updatePort p f s).seq = s.seq ∧ (updatePort p f s).flash = s.flash
    ∧ (updatePort p f s).faults = s.faults := by
  simp [updatePort]

@[simp] theorem giveResult_keeps (p : Port) (code : Code) (seg : BitVec 8) (s : State) :
    (giveResult p code seg s).pending = s.pending ∧ (giveResult p code seg s).mem = s.mem
    ∧ (giveResult p code seg s).leftover = s.leftover ∧ (giveResult p code seg s).freeCount = s.freeCount
    ∧ (giveResult p code seg s).map = s.map ∧ (giveResult p code seg s).commit = s.commit
    ∧ (giveResult p code seg s).check = s.check ∧ (giveResult p code seg s).reader = s.reader
    ∧ (giveResult p code seg s).log = s.log ∧ (giveResult p code seg s).image = s.image
    ∧ (giveResult p code seg s).seq = s.seq ∧ (giveResult p code seg s).flash = s.flash
    ∧ (giveResult p code seg s).faults = s.faults := by
  simp [giveResult]

@[simp] theorem formChunk_keeps (p : Port) (s : State) :
    (formChunk p s).pending = s.pending ∧ (formChunk p s).mem = s.mem ∧ (formChunk p s).leftover = s.leftover
    ∧ (formChunk p s).freeCount = s.freeCount ∧ (formChunk p s).map = s.map ∧ (formChunk p s).session = s.session
    ∧ (formChunk p s).commit = s.commit ∧ (formChunk p s).check = s.check ∧ (formChunk p s).reader = s.reader
    ∧ (formChunk p s).log = s.log ∧ (formChunk p s).image = s.image ∧ (formChunk p s).seq = s.seq
    ∧ (formChunk p s).faults = s.faults := by
  unfold formChunk; dsimp only; (repeat' split) <;> simp

@[simp] theorem firstChunk_keeps (p : Port) (s : State) :
    (firstChunk p s).pending = s.pending ∧ (firstChunk p s).mem = s.mem ∧ (firstChunk p s).leftover = s.leftover
    ∧ (firstChunk p s).freeCount = s.freeCount ∧ (firstChunk p s).map.entries = s.map.entries
    ∧ (firstChunk p s).map.epoch = s.map.epoch ∧ (firstChunk p s).map.switch = s.map.switch
    ∧ (firstChunk p s).session = s.session ∧ (firstChunk p s).commit = s.commit ∧ (firstChunk p s).check = s.check
    ∧ (firstChunk p s).reader = s.reader ∧ (firstChunk p s).log = s.log ∧ (firstChunk p s).image = s.image
    ∧ (firstChunk p s).seq = s.seq ∧ (firstChunk p s).faults = s.faults := by
  unfold firstChunk; (repeat' split) <;> simp

@[simp] theorem deliver_keeps (p : Port) (n : Nat) (s : State) :
    (deliver p n s).pending = s.pending ∧ (deliver p n s).mem = s.mem ∧ (deliver p n s).leftover = s.leftover
    ∧ (deliver p n s).freeCount = s.freeCount ∧ (deliver p n s).map = s.map ∧ (deliver p n s).session = s.session
    ∧ (deliver p n s).commit = s.commit ∧ (deliver p n s).check = s.check ∧ (deliver p n s).reader = s.reader
    ∧ (deliver p n s).log = s.log ∧ (deliver p n s).image = s.image ∧ (deliver p n s).seq = s.seq
    ∧ (deliver p n s).flash = s.flash ∧ (deliver p n s).faults = s.faults := by
  unfold deliver; (repeat' split) <;> simp

@[simp] theorem takeArriving_keeps (p : Port) (k : Nat) (s : State) :
    (takeArriving p k s).pending = s.pending ∧ (takeArriving p k s).mem = s.mem ∧ (takeArriving p k s).leftover = s.leftover
    ∧ (takeArriving p k s).freeCount = s.freeCount ∧ (takeArriving p k s).map = s.map ∧ (takeArriving p k s).session = s.session
    ∧ (takeArriving p k s).commit = s.commit ∧ (takeArriving p k s).check = s.check ∧ (takeArriving p k s).reader = s.reader
    ∧ (takeArriving p k s).log = s.log ∧ (takeArriving p k s).image = s.image ∧ (takeArriving p k s).seq = s.seq
    ∧ (takeArriving p k s).flash = s.flash ∧ (takeArriving p k s).faults = s.faults := by
  unfold takeArriving; (repeat' split) <;> simp

@[simp] theorem clockBytes_keeps (p : Port) (x : Clocking) (s : State) :
    (clockBytes p x s).pending = s.pending ∧ (clockBytes p x s).mem = s.mem ∧ (clockBytes p x s).leftover = s.leftover
    ∧ (clockBytes p x s).freeCount = s.freeCount ∧ (clockBytes p x s).map = s.map ∧ (clockBytes p x s).session = s.session
    ∧ (clockBytes p x s).commit = s.commit ∧ (clockBytes p x s).check = s.check ∧ (clockBytes p x s).reader = s.reader
    ∧ (clockBytes p x s).log = s.log ∧ (clockBytes p x s).image = s.image ∧ (clockBytes p x s).seq = s.seq
    ∧ (clockBytes p x s).flash = s.flash ∧ (clockBytes p x s).faults = s.faults := by
  simp [clockBytes]

@[simp] theorem unpin_keeps (t : HostTransfer) (s : State) :
    (unpin t s).pending = s.pending ∧ (unpin t s).mem = s.mem ∧ (unpin t s).leftover = s.leftover
    ∧ (unpin t s).freeCount = s.freeCount ∧ (unpin t s).map.entries = s.map.entries
    ∧ (unpin t s).map.epoch = s.map.epoch ∧ (unpin t s).map.switch = s.map.switch ∧ (unpin t s).session = s.session
    ∧ (unpin t s).commit = s.commit ∧ (unpin t s).check = s.check ∧ (unpin t s).reader = s.reader
    ∧ (unpin t s).log = s.log ∧ (unpin t s).image = s.image ∧ (unpin t s).seq = s.seq ∧ (unpin t s).flash = s.flash
    ∧ (unpin t s).faults = s.faults := by
  unfold unpin; (repeat' split) <;> simp

@[simp] theorem endTransfer_keeps (p : Port) (s : State) :
    (endTransfer p s).pending = s.pending ∧ (endTransfer p s).mem = s.mem ∧ (endTransfer p s).leftover = s.leftover
    ∧ (endTransfer p s).freeCount = s.freeCount ∧ (endTransfer p s).map.entries = s.map.entries
    ∧ (endTransfer p s).map.epoch = s.map.epoch ∧ (endTransfer p s).map.switch = s.map.switch
    ∧ (endTransfer p s).session = s.session ∧ (endTransfer p s).commit = s.commit ∧ (endTransfer p s).check = s.check
    ∧ (endTransfer p s).reader = s.reader ∧ (endTransfer p s).log = s.log ∧ (endTransfer p s).image = s.image
    ∧ (endTransfer p s).seq = s.seq ∧ (endTransfer p s).faults = s.faults := by
  unfold endTransfer; dsimp only; (repeat' split) <;> simp

@[simp] theorem loadTimer_keeps (s : State) :
    (loadTimer s).pending = s.pending ∧ (loadTimer s).mem = s.mem ∧ (loadTimer s).leftover = s.leftover
    ∧ (loadTimer s).freeCount = s.freeCount ∧ (loadTimer s).map = s.map ∧ (loadTimer s).commit = s.commit
    ∧ (loadTimer s).check = s.check ∧ (loadTimer s).reader = s.reader ∧ (loadTimer s).log = s.log
    ∧ (loadTimer s).image = s.image ∧ (loadTimer s).seq = s.seq ∧ (loadTimer s).flash = s.flash
    ∧ (loadTimer s).faults = s.faults ∧ (∀ r, (loadTimer s).port r = s.port r) := by
  and_intros <;> first | rfl | (intro r; cases r <;> rfl)

@[simp] theorem askAppend_keeps (b : RecordBody) (s : State) :
    (askAppend b s).pending = s.pending ∧ (askAppend b s).mem = s.mem ∧ (askAppend b s).leftover = s.leftover
    ∧ (askAppend b s).freeCount = s.freeCount ∧ (askAppend b s).map = s.map ∧ (askAppend b s).session = s.session
    ∧ (askAppend b s).commit = s.commit ∧ (askAppend b s).check = s.check ∧ (askAppend b s).reader = s.reader
    ∧ (askAppend b s).log.lock = s.log.lock ∧ (askAppend b s).log.replay = s.log.replay
    ∧ (askAppend b s).log.initStep = s.log.initStep ∧ (askAppend b s).image = s.image ∧ (askAppend b s).seq = s.seq
    ∧ (askAppend b s).flash = s.flash ∧ (askAppend b s).faults = s.faults ∧ (∀ r, (askAppend b s).port r = s.port r) := by
  and_intros <;> first | rfl | (intro r; cases r <;> rfl)

@[simp] theorem openSegment_keeps (p : Port) (f : InFlight) (s : State) :
    (openSegment p f s).pending = s.pending ∧ (openSegment p f s).mem = s.mem
    ∧ (openSegment p f s).leftover = s.leftover ∧ (openSegment p f s).freeCount = s.freeCount
    ∧ (openSegment p f s).map.epoch = s.map.epoch ∧ (openSegment p f s).map.pinned = s.map.pinned
    ∧ (openSegment p f s).map.switch = s.map.switch ∧ (openSegment p f s).commit = s.commit
    ∧ (openSegment p f s).check = s.check ∧ (openSegment p f s).reader = s.reader ∧ (openSegment p f s).log = s.log
    ∧ (openSegment p f s).image = s.image ∧ (openSegment p f s).seq = s.seq ∧ (openSegment p f s).faults = s.faults
    ∧ (∀ r, (openSegment p f s).port r = s.port r) := by
  unfold openSegment; dsimp only; (repeat' split) <;> simp

@[simp] theorem beginOpening_keeps (p : Port) (f : InFlight) (s : State) :
    (beginOpening p f s).pending = s.pending ∧ (beginOpening p f s).mem = s.mem
    ∧ (beginOpening p f s).leftover = s.leftover ∧ (beginOpening p f s).freeCount = s.freeCount
    ∧ (beginOpening p f s).map.epoch = s.map.epoch ∧ (beginOpening p f s).map.pinned = s.map.pinned
    ∧ (beginOpening p f s).map.switch = s.map.switch ∧ (beginOpening p f s).commit = s.commit
    ∧ (beginOpening p f s).check = s.check ∧ (beginOpening p f s).reader = s.reader
    ∧ (beginOpening p f s).log.lock = s.log.lock ∧ (beginOpening p f s).log.replay = s.log.replay
    ∧ (beginOpening p f s).log.initStep = s.log.initStep ∧ (beginOpening p f s).image = s.image
    ∧ (beginOpening p f s).seq = s.seq ∧ (beginOpening p f s).faults = s.faults
    ∧ (∀ r, (beginOpening p f s).port r = s.port r) := by
  unfold beginOpening; (repeat' split) <;> simp

@[simp] theorem ownerSectorErase_keeps (p : Port) (a : LogicalAddr) (s : State) :
    (ownerSectorErase p a s).pending = s.pending ∧ (ownerSectorErase p a s).mem = s.mem
    ∧ (ownerSectorErase p a s).leftover = s.leftover ∧ (ownerSectorErase p a s).freeCount = s.freeCount
    ∧ (ownerSectorErase p a s).map.epoch = s.map.epoch ∧ (ownerSectorErase p a s).map.pinned = s.map.pinned
    ∧ (ownerSectorErase p a s).map.switch = s.map.switch ∧ (ownerSectorErase p a s).commit = s.commit
    ∧ (ownerSectorErase p a s).check = s.check ∧ (ownerSectorErase p a s).reader = s.reader
    ∧ (ownerSectorErase p a s).log.lock = s.log.lock ∧ (ownerSectorErase p a s).log.replay = s.log.replay
    ∧ (ownerSectorErase p a s).log.initStep = s.log.initStep ∧ (ownerSectorErase p a s).image = s.image
    ∧ (ownerSectorErase p a s).seq = s.seq ∧ (ownerSectorErase p a s).faults = s.faults := by
  unfold ownerSectorErase; dsimp only; (repeat' split) <;> simp

@[simp] theorem ownerSegmentErase_keeps (p : Port) (a : LogicalAddr) (s : State) :
    (ownerSegmentErase p a s).pending = s.pending ∧ (ownerSegmentErase p a s).mem = s.mem
    ∧ (ownerSegmentErase p a s).leftover = s.leftover ∧ (ownerSegmentErase p a s).freeCount = s.freeCount
    ∧ (ownerSegmentErase p a s).map.epoch = s.map.epoch ∧ (ownerSegmentErase p a s).map.pinned = s.map.pinned
    ∧ (ownerSegmentErase p a s).map.switch = s.map.switch ∧ (ownerSegmentErase p a s).commit = s.commit
    ∧ (ownerSegmentErase p a s).check = s.check ∧ (ownerSegmentErase p a s).reader = s.reader
    ∧ (ownerSegmentErase p a s).log.lock = s.log.lock ∧ (ownerSegmentErase p a s).log.replay = s.log.replay
    ∧ (ownerSegmentErase p a s).log.initStep = s.log.initStep ∧ (ownerSegmentErase p a s).image = s.image
    ∧ (ownerSegmentErase p a s).seq = s.seq ∧ (ownerSegmentErase p a s).faults = s.faults
    ∧ (∀ r, (ownerSegmentErase p a s).port r = s.port r) := by
  unfold ownerSegmentErase; dsimp only; (repeat' split) <;> simp

@[simp] theorem ownerErase_keeps (p : Port) (f : InFlight) (s : State) :
    (ownerErase p f s).pending = s.pending ∧ (ownerErase p f s).mem = s.mem
    ∧ (ownerErase p f s).leftover = s.leftover ∧ (ownerErase p f s).freeCount = s.freeCount
    ∧ (ownerErase p f s).map.epoch = s.map.epoch ∧ (ownerErase p f s).map.pinned = s.map.pinned
    ∧ (ownerErase p f s).map.switch = s.map.switch ∧ (ownerErase p f s).commit = s.commit
    ∧ (ownerErase p f s).check = s.check ∧ (ownerErase p f s).reader = s.reader
    ∧ (ownerErase p f s).log.lock = s.log.lock ∧ (ownerErase p f s).log.replay = s.log.replay
    ∧ (ownerErase p f s).log.initStep = s.log.initStep ∧ (ownerErase p f s).image = s.image
    ∧ (ownerErase p f s).seq = s.seq ∧ (ownerErase p f s).faults = s.faults := by
  unfold ownerErase; (repeat' split) <;> simp

@[simp] theorem startSession_keeps (p : Port) (s : State) :
    (startSession p s).pending = s.pending ∧ (startSession p s).mem = s.mem
    ∧ (startSession p s).leftover = s.leftover ∧ (startSession p s).freeCount = s.freeCount
    ∧ (startSession p s).map = s.map ∧ (startSession p s).commit = s.commit ∧ (startSession p s).check = s.check
    ∧ (startSession p s).reader = s.reader ∧ (startSession p s).log = s.log ∧ (startSession p s).image = s.image
    ∧ (startSession p s).seq = s.seq ∧ (startSession p s).flash = s.flash ∧ (startSession p s).faults = s.faults
    ∧ (∀ r, (startSession p s).port r = s.port r) := by
  and_intros <;> first | rfl | (intro r; cases r <;> rfl)

@[simp] theorem sessionErase_keeps (p : Port) (f : InFlight) (s : State) :
    (sessionErase p f s).pending = s.pending ∧ (sessionErase p f s).mem = s.mem
    ∧ (sessionErase p f s).leftover = s.leftover ∧ (sessionErase p f s).freeCount = s.freeCount
    ∧ (sessionErase p f s).map.epoch = s.map.epoch ∧ (sessionErase p f s).map.pinned = s.map.pinned
    ∧ (sessionErase p f s).map.switch = s.map.switch ∧ (sessionErase p f s).commit = s.commit
    ∧ (sessionErase p f s).check = s.check ∧ (sessionErase p f s).reader = s.reader
    ∧ (sessionErase p f s).log.lock = s.log.lock ∧ (sessionErase p f s).log.replay = s.log.replay
    ∧ (sessionErase p f s).log.initStep = s.log.initStep ∧ (sessionErase p f s).image = s.image
    ∧ (sessionErase p f s).seq = s.seq ∧ (sessionErase p f s).faults = s.faults := by
  unfold sessionErase; (repeat' split) <;> simp

@[simp] theorem ownerProgram_keeps (p : Port) (a : LogicalAddr) (data : List Byte) (s : State) :
    (ownerProgram p a data s).pending = s.pending ∧ (ownerProgram p a data s).mem = s.mem
    ∧ (ownerProgram p a data s).leftover = s.leftover ∧ (ownerProgram p a data s).freeCount = s.freeCount
    ∧ (ownerProgram p a data s).map = s.map ∧ (ownerProgram p a data s).commit = s.commit
    ∧ (ownerProgram p a data s).check = s.check ∧ (ownerProgram p a data s).reader = s.reader
    ∧ (ownerProgram p a data s).log = s.log ∧ (ownerProgram p a data s).image = s.image
    ∧ (ownerProgram p a data s).seq = s.seq ∧ (ownerProgram p a data s).faults = s.faults := by
  unfold ownerProgram; (repeat' split) <;> simp

@[simp] theorem endSession_keeps (s : State) :
    (endSession s).pending = s.pending ∧ (endSession s).mem = s.mem ∧ (endSession s).leftover = s.leftover
    ∧ (endSession s).freeCount = s.freeCount ∧ (endSession s).map.epoch = s.map.epoch
    ∧ (endSession s).map.pinned = s.map.pinned ∧ (endSession s).map.switch = s.map.switch
    ∧ (endSession s).commit = s.commit ∧ (endSession s).check = s.check ∧ (endSession s).reader = s.reader
    ∧ (endSession s).log = s.log ∧ (endSession s).image = s.image ∧ (endSession s).seq = s.seq
    ∧ (endSession s).flash = s.flash ∧ (endSession s).faults = s.faults ∧ (∀ r, (endSession s).port r = s.port r) := by
  unfold endSession; (repeat' split) <;> simp

@[simp] theorem abandonSession_keeps (r : EndReason) (s : State) :
    (abandonSession r s).pending = s.pending ∧ (abandonSession r s).mem = s.mem
    ∧ (abandonSession r s).leftover = s.leftover ∧ (abandonSession r s).freeCount = s.freeCount
    ∧ (abandonSession r s).map.epoch = s.map.epoch ∧ (abandonSession r s).map.pinned = s.map.pinned
    ∧ (abandonSession r s).map.switch = s.map.switch ∧ (abandonSession r s).commit = s.commit
    ∧ (abandonSession r s).check = s.check ∧ (abandonSession r s).reader = s.reader
    ∧ (abandonSession r s).log = s.log ∧ (abandonSession r s).image = s.image ∧ (abandonSession r s).seq = s.seq
    ∧ (abandonSession r s).flash = s.flash ∧ (abandonSession r s).faults = s.faults := by
  unfold abandonSession; (repeat' split) <;> simp

@[simp] theorem endingComplete_keeps (p : Port) (isProgram ok : Bool) (s : State) :
    (endingComplete p isProgram ok s).pending = s.pending ∧ (endingComplete p isProgram ok s).mem = s.mem
    ∧ (endingComplete p isProgram ok s).leftover = s.leftover
    ∧ (endingComplete p isProgram ok s).freeCount = s.freeCount
    ∧ (endingComplete p isProgram ok s).map.epoch = s.map.epoch
    ∧ (endingComplete p isProgram ok s).map.pinned = s.map.pinned
    ∧ (endingComplete p isProgram ok s).map.switch = s.map.switch
    ∧ (endingComplete p isProgram ok s).commit = s.commit ∧ (endingComplete p isProgram ok s).check = s.check
    ∧ (endingComplete p isProgram ok s).reader = s.reader ∧ (endingComplete p isProgram ok s).log = s.log
    ∧ (endingComplete p isProgram ok s).image = s.image ∧ (endingComplete p isProgram ok s).seq = s.seq
    ∧ (endingComplete p isProgram ok s).flash = s.flash ∧ (endingComplete p isProgram ok s).faults = s.faults := by
  simp [endingComplete]

@[simp] theorem openingDone_keeps (p : Port) (seg : Nat) (ok : Bool) (s : State) :
    (openingDone p seg ok s).pending = s.pending ∧ (openingDone p seg ok s).mem = s.mem
    ∧ (openingDone p seg ok s).leftover = s.leftover ∧ (openingDone p seg ok s).freeCount = s.freeCount
    ∧ (openingDone p seg ok s).map.epoch = s.map.epoch ∧ (openingDone p seg ok s).map.pinned = s.map.pinned
    ∧ (openingDone p seg ok s).map.switch = s.map.switch ∧ (openingDone p seg ok s).commit = s.commit
    ∧ (openingDone p seg ok s).check = s.check ∧ (openingDone p seg ok s).reader = s.reader
    ∧ (openingDone p seg ok s).log = s.log ∧ (openingDone p seg ok s).image = s.image
    ∧ (openingDone p seg ok s).seq = s.seq ∧ (openingDone p seg ok s).flash = s.flash
    ∧ (openingDone p seg ok s).faults = s.faults := by
  unfold openingDone; (repeat' split) <;> simp

@[simp] theorem sectorEraseDone_keeps (p : Port) (seg : Nat) (ok : Bool) (s : State) :
    (sectorEraseDone p seg ok s).pending = s.pending ∧ (sectorEraseDone p seg ok s).mem = s.mem
    ∧ (sectorEraseDone p seg ok s).leftover = s.leftover ∧ (sectorEraseDone p seg ok s).freeCount = s.freeCount
    ∧ (sectorEraseDone p seg ok s).map.epoch = s.map.epoch ∧ (sectorEraseDone p seg ok s).map.pinned = s.map.pinned
    ∧ (sectorEraseDone p seg ok s).map.switch = s.map.switch ∧ (sectorEraseDone p seg ok s).commit = s.commit
    ∧ (sectorEraseDone p seg ok s).check = s.check ∧ (sectorEraseDone p seg ok s).reader = s.reader
    ∧ (sectorEraseDone p seg ok s).log = s.log ∧ (sectorEraseDone p seg ok s).image = s.image
    ∧ (sectorEraseDone p seg ok s).seq = s.seq ∧ (sectorEraseDone p seg ok s).flash = s.flash
    ∧ (sectorEraseDone p seg ok s).faults = s.faults := by
  unfold sectorEraseDone; (repeat' split) <;> simp

@[simp] theorem blockEraseDone_keeps (p : Port) (seg : Nat) (ok : Bool) (s : State) :
    (blockEraseDone p seg ok s).pending = s.pending ∧ (blockEraseDone p seg ok s).mem = s.mem
    ∧ (blockEraseDone p seg ok s).leftover = s.leftover ∧ (blockEraseDone p seg ok s).freeCount = s.freeCount
    ∧ (blockEraseDone p seg ok s).map.epoch = s.map.epoch ∧ (blockEraseDone p seg ok s).map.pinned = s.map.pinned
    ∧ (blockEraseDone p seg ok s).map.switch = s.map.switch ∧ (blockEraseDone p seg ok s).commit = s.commit
    ∧ (blockEraseDone p seg ok s).check = s.check ∧ (blockEraseDone p seg ok s).reader = s.reader
    ∧ (blockEraseDone p seg ok s).log = s.log ∧ (blockEraseDone p seg ok s).image = s.image
    ∧ (blockEraseDone p seg ok s).seq = s.seq ∧ (blockEraseDone p seg ok s).flash = s.flash
    ∧ (blockEraseDone p seg ok s).faults = s.faults := by
  unfold blockEraseDone; (repeat' split) <;> simp

@[simp] theorem ownerEraseDone_keeps (p : Port) (e : FlashErase) (ok : Bool) (s : State) :
    (ownerEraseDone p e ok s).pending = s.pending ∧ (ownerEraseDone p e ok s).mem = s.mem
    ∧ (ownerEraseDone p e ok s).leftover = s.leftover ∧ (ownerEraseDone p e ok s).freeCount = s.freeCount
    ∧ (ownerEraseDone p e ok s).map.epoch = s.map.epoch ∧ (ownerEraseDone p e ok s).map.pinned = s.map.pinned
    ∧ (ownerEraseDone p e ok s).map.switch = s.map.switch ∧ (ownerEraseDone p e ok s).commit = s.commit
    ∧ (ownerEraseDone p e ok s).check = s.check ∧ (ownerEraseDone p e ok s).reader = s.reader
    ∧ (ownerEraseDone p e ok s).log = s.log ∧ (ownerEraseDone p e ok s).image = s.image
    ∧ (ownerEraseDone p e ok s).seq = s.seq ∧ (ownerEraseDone p e ok s).flash = s.flash
    ∧ (ownerEraseDone p e ok s).faults = s.faults := by
  unfold ownerEraseDone; dsimp only; (repeat' split) <;> simp

@[simp] theorem sessionSoftReset_keeps (p : Port) (s : State) :
    (sessionSoftReset p s).pending = s.pending ∧ (sessionSoftReset p s).mem = s.mem
    ∧ (sessionSoftReset p s).leftover = s.leftover ∧ (sessionSoftReset p s).freeCount = s.freeCount
    ∧ (sessionSoftReset p s).map.epoch = s.map.epoch ∧ (sessionSoftReset p s).map.pinned = s.map.pinned
    ∧ (sessionSoftReset p s).map.switch = s.map.switch ∧ (sessionSoftReset p s).commit = s.commit
    ∧ (sessionSoftReset p s).check = s.check ∧ (sessionSoftReset p s).reader = s.reader
    ∧ (sessionSoftReset p s).log = s.log ∧ (sessionSoftReset p s).image = s.image
    ∧ (sessionSoftReset p s).seq = s.seq ∧ (sessionSoftReset p s).flash = s.flash
    ∧ (sessionSoftReset p s).faults = s.faults := by
  unfold sessionSoftReset; (repeat' split) <;> simp

@[simp] theorem placeChunk_keeps (s : State) :
    (placeChunk s).pending = s.pending ∧ (placeChunk s).mem = s.mem ∧ (placeChunk s).leftover = s.leftover
    ∧ (placeChunk s).freeCount = s.freeCount ∧ (placeChunk s).map = s.map ∧ (placeChunk s).session = s.session
    ∧ (placeChunk s).commit = s.commit ∧ (placeChunk s).check = s.check ∧ (placeChunk s).reader = s.reader
    ∧ (placeChunk s).log = s.log ∧ (placeChunk s).image = s.image ∧ (placeChunk s).seq = s.seq
    ∧ (placeChunk s).faults = s.faults ∧ (∀ r, (placeChunk s).port r = s.port r) := by
  unfold placeChunk; (repeat' split) <;> simp

@[simp] theorem startHeader_keeps (client : CheckClient) (s : State) :
    (startHeader client s).pending = s.pending ∧ (startHeader client s).mem = s.mem
    ∧ (startHeader client s).leftover = s.leftover ∧ (startHeader client s).freeCount = s.freeCount
    ∧ (startHeader client s).map = s.map ∧ (startHeader client s).session = s.session
    ∧ (startHeader client s).commit = s.commit ∧ (startHeader client s).log = s.log
    ∧ (startHeader client s).image = s.image ∧ (startHeader client s).seq = s.seq
    ∧ (startHeader client s).faults = s.faults ∧ (∀ r, (startHeader client s).port r = s.port r) := by
  and_intros <;> first | rfl | (intro r; cases r <;> rfl)

@[simp] theorem placeDescriptor_keeps (client : CheckClient) (seg : Nat) (s : State) :
    (placeDescriptor client seg s).pending = s.pending ∧ (placeDescriptor client seg s).mem = s.mem
    ∧ (placeDescriptor client seg s).leftover = s.leftover ∧ (placeDescriptor client seg s).freeCount = s.freeCount
    ∧ (placeDescriptor client seg s).map = s.map ∧ (placeDescriptor client seg s).session = s.session
    ∧ (placeDescriptor client seg s).commit = s.commit ∧ (placeDescriptor client seg s).check = s.check
    ∧ (placeDescriptor client seg s).log = s.log ∧ (placeDescriptor client seg s).image = s.image
    ∧ (placeDescriptor client seg s).seq = s.seq ∧ (placeDescriptor client seg s).faults = s.faults
    ∧ (∀ r, (placeDescriptor client seg s).port r = s.port r) := by
  and_intros <;> first | rfl | (intro r; cases r <;> rfl)

@[simp] theorem startSegmentRange_keeps (client : CheckClient) (seg length : Nat) (checkValue : Word32) (s : State) :
    (startSegmentRange client seg length checkValue s).pending = s.pending
    ∧ (startSegmentRange client seg length checkValue s).mem = s.mem
    ∧ (startSegmentRange client seg length checkValue s).leftover = s.leftover
    ∧ (startSegmentRange client seg length checkValue s).freeCount = s.freeCount
    ∧ (startSegmentRange client seg length checkValue s).map = s.map
    ∧ (startSegmentRange client seg length checkValue s).session = s.session
    ∧ (startSegmentRange client seg length checkValue s).commit = s.commit
    ∧ (startSegmentRange client seg length checkValue s).log = s.log
    ∧ (startSegmentRange client seg length checkValue s).image = s.image
    ∧ (startSegmentRange client seg length checkValue s).seq = s.seq
    ∧ (startSegmentRange client seg length checkValue s).faults = s.faults
    ∧ (∀ r, (startSegmentRange client seg length checkValue s).port r = s.port r) := by
  and_intros <;> first | rfl | (intro r; cases r <;> rfl)

@[simp] theorem enterPhase_keeps (ph : StartPhase) (s : State) :
    (enterPhase ph s).pending = s.pending ∧ (enterPhase ph s).mem = s.mem ∧ (enterPhase ph s).leftover = s.leftover
    ∧ (enterPhase ph s).freeCount = s.freeCount ∧ (enterPhase ph s).map = s.map
    ∧ (enterPhase ph s).session = s.session ∧ (enterPhase ph s).commit = s.commit ∧ (enterPhase ph s).check = s.check
    ∧ (enterPhase ph s).reader = s.reader ∧ (enterPhase ph s).log = s.log ∧ (enterPhase ph s).image = s.image
    ∧ (enterPhase ph s).seq.straps = s.seq.straps ∧ (enterPhase ph s).flash = s.flash
    ∧ (enterPhase ph s).faults = s.faults ∧ (∀ r, (enterPhase ph s).port r = s.port r) := by
  and_intros <;> first | rfl | (intro r; cases r <;> rfl)

@[simp] theorem phaseRunning_keeps (s : State) :
    (phaseRunning s).pending = s.pending ∧ (phaseRunning s).mem = s.mem ∧ (phaseRunning s).leftover = s.leftover
    ∧ (phaseRunning s).freeCount = s.freeCount ∧ (phaseRunning s).map = s.map ∧ (phaseRunning s).session = s.session
    ∧ (phaseRunning s).commit = s.commit ∧ (phaseRunning s).check = s.check ∧ (phaseRunning s).reader = s.reader
    ∧ (phaseRunning s).log = s.log ∧ (phaseRunning s).image = s.image ∧ (phaseRunning s).seq.phase = s.seq.phase
    ∧ (phaseRunning s).seq.straps = s.seq.straps ∧ (phaseRunning s).flash = s.flash
    ∧ (phaseRunning s).faults = s.faults ∧ (∀ r, (phaseRunning s).port r = s.port r) := by
  and_intros <;> first | rfl | (intro r; cases r <;> rfl)

@[simp] theorem endCheck_keeps (result : CheckResult) (s : State) :
    (endCheck result s).pending = s.pending ∧ (endCheck result s).mem = s.mem
    ∧ (endCheck result s).leftover = s.leftover ∧ (endCheck result s).freeCount = s.freeCount
    ∧ (endCheck result s).map = s.map ∧ (endCheck result s).session = s.session
    ∧ (endCheck result s).commit = s.commit ∧ (endCheck result s).check = s.check ∧ (endCheck result s).log = s.log
    ∧ (endCheck result s).image = s.image ∧ (endCheck result s).seq.phase = s.seq.phase
    ∧ (endCheck result s).seq.straps = s.seq.straps ∧ (endCheck result s).flash = s.flash
    ∧ (endCheck result s).faults = s.faults ∧ (∀ r, (endCheck result s).port r = s.port r) := by
  and_intros <;> first | rfl | (intro r; cases r <;> rfl)

@[simp] theorem checkPassed_keeps (s : State) :
    (checkPassed s).pending = s.pending ∧ (checkPassed s).mem = s.mem ∧ (checkPassed s).leftover = s.leftover
    ∧ (checkPassed s).freeCount = s.freeCount ∧ (checkPassed s).map = s.map ∧ (checkPassed s).session = s.session
    ∧ (checkPassed s).commit = s.commit ∧ (checkPassed s).check = s.check ∧ (checkPassed s).log = s.log
    ∧ (checkPassed s).image = s.image ∧ (checkPassed s).seq.phase = s.seq.phase
    ∧ (checkPassed s).seq.straps = s.seq.straps ∧ (checkPassed s).flash = s.flash ∧ (checkPassed s).faults = s.faults
    ∧ (∀ r, (checkPassed s).port r = s.port r) := by
  and_intros <;> first | rfl | (intro r; cases r <;> rfl)

@[simp] theorem noValidImage_keeps (s : State) :
    (noValidImage s).pending = s.pending ∧ (noValidImage s).mem = s.mem ∧ (noValidImage s).leftover = s.leftover
    ∧ (noValidImage s).freeCount = s.freeCount ∧ (noValidImage s).map = s.map ∧ (noValidImage s).session = s.session
    ∧ (noValidImage s).commit = s.commit ∧ (noValidImage s).check = s.check ∧ (noValidImage s).reader = s.reader
    ∧ (noValidImage s).log = s.log ∧ (noValidImage s).image = s.image ∧ (noValidImage s).seq.phase = s.seq.phase
    ∧ (noValidImage s).seq.straps = s.seq.straps ∧ (noValidImage s).flash = s.flash
    ∧ (∀ r, (noValidImage s).port r = s.port r) := by
  and_intros <;> first | rfl | (intro r; cases r <;> rfl)

@[simp] theorem askStartRollback_keeps (cause : RollbackCause) (s : State) :
    (askStartRollback cause s).pending = s.pending ∧ (askStartRollback cause s).mem = s.mem
    ∧ (askStartRollback cause s).leftover = s.leftover ∧ (askStartRollback cause s).freeCount = s.freeCount
    ∧ (askStartRollback cause s).map = s.map ∧ (askStartRollback cause s).session = s.session
    ∧ (askStartRollback cause s).commit = s.commit ∧ (askStartRollback cause s).check = s.check
    ∧ (askStartRollback cause s).reader = s.reader ∧ (askStartRollback cause s).log.lock = s.log.lock
    ∧ (askStartRollback cause s).log.replay = s.log.replay ∧ (askStartRollback cause s).log.initStep = s.log.initStep
    ∧ (askStartRollback cause s).image.serial = s.image.serial
    ∧ (askStartRollback cause s).image.imageOk = s.image.imageOk
    ∧ (askStartRollback cause s).image.state = s.image.state ∧ (askStartRollback cause s).seq = s.seq
    ∧ (askStartRollback cause s).flash = s.flash ∧ (askStartRollback cause s).faults = s.faults
    ∧ (∀ r, (askStartRollback cause s).port r = s.port r) := by
  and_intros <;> first | rfl | (intro r; cases r <;> rfl)

@[simp] theorem checkFailed_keeps (s : State) :
    (checkFailed s).pending = s.pending ∧ (checkFailed s).mem = s.mem ∧ (checkFailed s).leftover = s.leftover
    ∧ (checkFailed s).freeCount = s.freeCount ∧ (checkFailed s).map = s.map ∧ (checkFailed s).session = s.session
    ∧ (checkFailed s).commit = s.commit ∧ (checkFailed s).check = s.check ∧ (checkFailed s).log.lock = s.log.lock
    ∧ (checkFailed s).log.replay = s.log.replay ∧ (checkFailed s).log.initStep = s.log.initStep
    ∧ (checkFailed s).image.serial = s.image.serial ∧ (checkFailed s).image.imageOk = s.image.imageOk
    ∧ (checkFailed s).image.state = s.image.state ∧ (checkFailed s).seq.phase = s.seq.phase
    ∧ (checkFailed s).seq.straps = s.seq.straps ∧ (checkFailed s).flash = s.flash
    ∧ (∀ r, (checkFailed s).port r = s.port r) := by
  unfold checkFailed; dsimp only; (repeat' split) <;> simp

@[simp] theorem failCommit_keeps (code : Code) (seg : BitVec 8) (s : State) :
    (failCommit code seg s).pending = s.pending ∧ (failCommit code seg s).mem = s.mem
    ∧ (failCommit code seg s).leftover = s.leftover ∧ (failCommit code seg s).freeCount = s.freeCount
    ∧ (failCommit code seg s).map.epoch = s.map.epoch ∧ (failCommit code seg s).map.pinned = s.map.pinned
    ∧ (failCommit code seg s).map.switch = s.map.switch ∧ (failCommit code seg s).check = s.check
    ∧ (failCommit code seg s).log = s.log ∧ (failCommit code seg s).image = s.image
    ∧ (failCommit code seg s).seq = s.seq ∧ (failCommit code seg s).flash = s.flash
    ∧ (failCommit code seg s).faults = s.faults := by
  simp [failCommit]

@[simp] theorem enterRecord_keeps (s : State) :
    (enterRecord s).pending = s.pending ∧ (enterRecord s).mem = s.mem ∧ (enterRecord s).leftover = s.leftover
    ∧ (enterRecord s).freeCount = s.freeCount ∧ (enterRecord s).map = s.map ∧ (enterRecord s).session = s.session
    ∧ (enterRecord s).check = s.check ∧ (enterRecord s).log.lock = s.log.lock
    ∧ (enterRecord s).log.replay = s.log.replay ∧ (enterRecord s).log.initStep = s.log.initStep
    ∧ (enterRecord s).image = s.image ∧ (enterRecord s).seq = s.seq ∧ (enterRecord s).flash = s.flash
    ∧ (enterRecord s).faults = s.faults ∧ (∀ r, (enterRecord s).port r = s.port r) := by
  and_intros <;> first | rfl | (intro r; cases r <;> rfl)

@[simp] theorem commitVerify_keeps (start : Nat) (s : State) :
    (commitVerify start s).pending = s.pending ∧ (commitVerify start s).mem = s.mem
    ∧ (commitVerify start s).leftover = s.leftover ∧ (commitVerify start s).freeCount = s.freeCount
    ∧ (commitVerify start s).map = s.map ∧ (commitVerify start s).session = s.session
    ∧ (commitVerify start s).check = s.check ∧ (commitVerify start s).log.lock = s.log.lock
    ∧ (commitVerify start s).log.replay = s.log.replay ∧ (commitVerify start s).log.initStep = s.log.initStep
    ∧ (commitVerify start s).image = s.image ∧ (commitVerify start s).seq = s.seq
    ∧ (commitVerify start s).faults = s.faults ∧ (∀ r, (commitVerify start s).port r = s.port r) := by
  unfold commitVerify; (repeat' split) <;> simp

@[simp] theorem startVerify_keeps (start : Nat) (s : State) :
    (startVerify start s).pending = s.pending ∧ (startVerify start s).mem = s.mem
    ∧ (startVerify start s).leftover = s.leftover ∧ (startVerify start s).freeCount = s.freeCount
    ∧ (startVerify start s).map = s.map ∧ (startVerify start s).session = s.session
    ∧ (startVerify start s).commit = s.commit ∧ (startVerify start s).check = s.check
    ∧ (startVerify start s).log = s.log ∧ (startVerify start s).image = s.image
    ∧ (startVerify start s).seq.phase = s.seq.phase ∧ (startVerify start s).seq.straps = s.seq.straps
    ∧ (startVerify start s).faults = s.faults ∧ (∀ r, (startVerify start s).port r = s.port r) := by
  unfold startVerify; (repeat' split) <;> simp

@[simp] theorem placeCopyRead_keeps (cur : Cursor) (page : Nat) (s : State) :
    (placeCopyRead cur page s).pending = s.pending ∧ (placeCopyRead cur page s).mem = s.mem
    ∧ (placeCopyRead cur page s).leftover = s.leftover ∧ (placeCopyRead cur page s).freeCount = s.freeCount
    ∧ (placeCopyRead cur page s).map = s.map ∧ (placeCopyRead cur page s).session = s.session
    ∧ (placeCopyRead cur page s).check = s.check ∧ (placeCopyRead cur page s).reader = s.reader
    ∧ (placeCopyRead cur page s).log = s.log ∧ (placeCopyRead cur page s).image = s.image
    ∧ (placeCopyRead cur page s).seq = s.seq ∧ (placeCopyRead cur page s).faults = s.faults
    ∧ (∀ r, (placeCopyRead cur page s).port r = s.port r) := by
  and_intros <;> first | rfl | (intro r; cases r <;> rfl)

@[simp] theorem fillFrom_keeps (k seg : Nat) (s : State) :
    (fillFrom k seg s).pending = s.pending ∧ (fillFrom k seg s).mem = s.mem
    ∧ (fillFrom k seg s).leftover = s.leftover ∧ (fillFrom k seg s).freeCount = s.freeCount
    ∧ (fillFrom k seg s).map.epoch = s.map.epoch ∧ (fillFrom k seg s).map.pinned = s.map.pinned
    ∧ (fillFrom k seg s).map.switch = s.map.switch ∧ (fillFrom k seg s).session = s.session
    ∧ (fillFrom k seg s).check = s.check ∧ (fillFrom k seg s).log.lock = s.log.lock
    ∧ (fillFrom k seg s).log.replay = s.log.replay ∧ (fillFrom k seg s).log.initStep = s.log.initStep
    ∧ (fillFrom k seg s).image = s.image ∧ (fillFrom k seg s).seq = s.seq ∧ (fillFrom k seg s).faults = s.faults
    ∧ (∀ r, (fillFrom k seg s).port r = s.port r) := by
  induction k generalizing seg s with
  | zero => simp [fillFrom]
  | succ k ih => unfold fillFrom; (repeat' split) <;> simp [ih]

@[simp] theorem fillOn_keeps (seg : Nat) (s : State) :
    (fillOn seg s).pending = s.pending ∧ (fillOn seg s).mem = s.mem ∧ (fillOn seg s).leftover = s.leftover
    ∧ (fillOn seg s).freeCount = s.freeCount ∧ (fillOn seg s).map.epoch = s.map.epoch
    ∧ (fillOn seg s).map.pinned = s.map.pinned ∧ (fillOn seg s).map.switch = s.map.switch
    ∧ (fillOn seg s).session = s.session ∧ (fillOn seg s).check = s.check ∧ (fillOn seg s).log.lock = s.log.lock
    ∧ (fillOn seg s).log.replay = s.log.replay ∧ (fillOn seg s).log.initStep = s.log.initStep
    ∧ (fillOn seg s).image = s.image ∧ (fillOn seg s).seq = s.seq ∧ (fillOn seg s).faults = s.faults
    ∧ (∀ r, (fillOn seg s).port r = s.port r) := by
  simp [fillOn]

@[simp] theorem commitHeader_keeps (sm : HeaderSummary) (s : State) :
    (commitHeader sm s).pending = s.pending ∧ (commitHeader sm s).mem = s.mem
    ∧ (commitHeader sm s).leftover = s.leftover ∧ (commitHeader sm s).freeCount = s.freeCount
    ∧ (commitHeader sm s).map.epoch = s.map.epoch ∧ (commitHeader sm s).map.pinned = s.map.pinned
    ∧ (commitHeader sm s).map.switch = s.map.switch ∧ (commitHeader sm s).check = s.check
    ∧ (commitHeader sm s).log.lock = s.log.lock ∧ (commitHeader sm s).log.replay = s.log.replay
    ∧ (commitHeader sm s).log.initStep = s.log.initStep ∧ (commitHeader sm s).image = s.image
    ∧ (commitHeader sm s).seq = s.seq ∧ (commitHeader sm s).faults = s.faults := by
  unfold commitHeader; (repeat' split) <;> simp

@[simp] theorem startHeaderTaken_keeps (sm : HeaderSummary) (s : State) :
    (startHeaderTaken sm s).pending = s.pending ∧ (startHeaderTaken sm s).mem = s.mem
    ∧ (startHeaderTaken sm s).leftover = s.leftover ∧ (startHeaderTaken sm s).freeCount = s.freeCount
    ∧ (startHeaderTaken sm s).map = s.map ∧ (startHeaderTaken sm s).session = s.session
    ∧ (startHeaderTaken sm s).commit = s.commit ∧ (startHeaderTaken sm s).check = s.check
    ∧ (startHeaderTaken sm s).log.lock = s.log.lock ∧ (startHeaderTaken sm s).log.replay = s.log.replay
    ∧ (startHeaderTaken sm s).log.initStep = s.log.initStep ∧ (startHeaderTaken sm s).image.serial = s.image.serial
    ∧ (startHeaderTaken sm s).image.imageOk = s.image.imageOk ∧ (startHeaderTaken sm s).image.state = s.image.state
    ∧ (startHeaderTaken sm s).seq.phase = s.seq.phase ∧ (startHeaderTaken sm s).seq.straps = s.seq.straps
    ∧ (∀ r, (startHeaderTaken sm s).port r = s.port r) := by
  unfold startHeaderTaken; (repeat' split) <;> simp

@[simp] theorem rangeResult_keeps (r : Reader) (crc : Word32) (s : State) :
    (rangeResult r crc s).pending = s.pending ∧ (rangeResult r crc s).mem = s.mem
    ∧ (rangeResult r crc s).leftover = s.leftover ∧ (rangeResult r crc s).freeCount = s.freeCount
    ∧ (rangeResult r crc s).map.epoch = s.map.epoch ∧ (rangeResult r crc s).map.pinned = s.map.pinned
    ∧ (rangeResult r crc s).map.switch = s.map.switch ∧ (rangeResult r crc s).check = s.check
    ∧ (rangeResult r crc s).log.lock = s.log.lock ∧ (rangeResult r crc s).log.replay = s.log.replay
    ∧ (rangeResult r crc s).log.initStep = s.log.initStep ∧ (rangeResult r crc s).image.serial = s.image.serial
    ∧ (rangeResult r crc s).image.imageOk = s.image.imageOk ∧ (rangeResult r crc s).image.state = s.image.state
    ∧ (rangeResult r crc s).seq.phase = s.seq.phase ∧ (rangeResult r crc s).seq.straps = s.seq.straps := by
  unfold rangeResult; (repeat' split) <;> simp

@[simp] theorem startCommitEngine_keeps (p : Port) (s : State) :
    (startCommitEngine p s).pending = s.pending ∧ (startCommitEngine p s).mem = s.mem
    ∧ (startCommitEngine p s).leftover = s.leftover ∧ (startCommitEngine p s).freeCount = s.freeCount
    ∧ (startCommitEngine p s).map.epoch = s.map.epoch ∧ (startCommitEngine p s).map.pinned = s.map.pinned
    ∧ (startCommitEngine p s).map.switch = s.map.switch ∧ (startCommitEngine p s).log = s.log
    ∧ (startCommitEngine p s).image = s.image ∧ (startCommitEngine p s).seq = s.seq
    ∧ (startCommitEngine p s).faults = s.faults := by
  unfold startCommitEngine; dsimp only; (repeat' split) <;> simp

@[simp] theorem ownerProgramDone_keeps (p : Port) (ok : Bool) (s : State) :
    (ownerProgramDone p ok s).pending = s.pending ∧ (ownerProgramDone p ok s).mem = s.mem
    ∧ (ownerProgramDone p ok s).leftover = s.leftover ∧ (ownerProgramDone p ok s).freeCount = s.freeCount
    ∧ (ownerProgramDone p ok s).map.epoch = s.map.epoch ∧ (ownerProgramDone p ok s).map.pinned = s.map.pinned
    ∧ (ownerProgramDone p ok s).map.switch = s.map.switch ∧ (ownerProgramDone p ok s).log = s.log
    ∧ (ownerProgramDone p ok s).image = s.image ∧ (ownerProgramDone p ok s).seq = s.seq
    ∧ (ownerProgramDone p ok s).faults = s.faults := by
  unfold ownerProgramDone; (repeat' split) <;> simp

@[simp] theorem copyReadDone_keeps (cur : Cursor) (bytes : List Byte) (s : State) :
    (copyReadDone cur bytes s).pending = s.pending ∧ (copyReadDone cur bytes s).mem = s.mem
    ∧ (copyReadDone cur bytes s).leftover = s.leftover ∧ (copyReadDone cur bytes s).freeCount = s.freeCount
    ∧ (copyReadDone cur bytes s).map = s.map ∧ (copyReadDone cur bytes s).session = s.session
    ∧ (copyReadDone cur bytes s).check = s.check ∧ (copyReadDone cur bytes s).reader = s.reader
    ∧ (copyReadDone cur bytes s).log = s.log ∧ (copyReadDone cur bytes s).image = s.image
    ∧ (copyReadDone cur bytes s).seq = s.seq ∧ (copyReadDone cur bytes s).faults = s.faults
    ∧ (∀ r, (copyReadDone cur bytes s).port r = s.port r) := by
  and_intros <;> first | rfl | (intro r; cases r <;> rfl)

@[simp] theorem copyProgramDone_keeps (ok : Bool) (s : State) :
    (copyProgramDone ok s).pending = s.pending ∧ (copyProgramDone ok s).mem = s.mem
    ∧ (copyProgramDone ok s).leftover = s.leftover ∧ (copyProgramDone ok s).freeCount = s.freeCount
    ∧ (copyProgramDone ok s).map.epoch = s.map.epoch ∧ (copyProgramDone ok s).map.pinned = s.map.pinned
    ∧ (copyProgramDone ok s).map.switch = s.map.switch ∧ (copyProgramDone ok s).check = s.check
    ∧ (copyProgramDone ok s).log.lock = s.log.lock ∧ (copyProgramDone ok s).log.replay = s.log.replay
    ∧ (copyProgramDone ok s).log.initStep = s.log.initStep ∧ (copyProgramDone ok s).image = s.image
    ∧ (copyProgramDone ok s).seq = s.seq ∧ (copyProgramDone ok s).faults = s.faults := by
  unfold copyProgramDone; (repeat' split) <;> simp

@[simp] theorem decideAccept_keeps (p : Port) (s : State) :
    (decideAccept p s).pending = s.pending ∧ (decideAccept p s).mem = s.mem
    ∧ (decideAccept p s).leftover = s.leftover ∧ (decideAccept p s).freeCount = s.freeCount
    ∧ (decideAccept p s).map = s.map ∧ (decideAccept p s).commit = s.commit ∧ (decideAccept p s).check = s.check
    ∧ (decideAccept p s).reader = s.reader ∧ (decideAccept p s).log.lock = s.log.lock
    ∧ (decideAccept p s).log.replay = s.log.replay ∧ (decideAccept p s).log.initStep = s.log.initStep
    ∧ (decideAccept p s).image.serial = s.image.serial ∧ (decideAccept p s).image.imageOk = s.image.imageOk
    ∧ (decideAccept p s).seq = s.seq ∧ (decideAccept p s).flash = s.flash ∧ (decideAccept p s).faults = s.faults := by
  unfold decideAccept; (repeat' split) <;> simp

@[simp] theorem decideRevert_keeps (p : Port) (s : State) :
    (decideRevert p s).pending = s.pending ∧ (decideRevert p s).mem = s.mem
    ∧ (decideRevert p s).leftover = s.leftover ∧ (decideRevert p s).freeCount = s.freeCount
    ∧ (decideRevert p s).map = s.map ∧ (decideRevert p s).commit = s.commit ∧ (decideRevert p s).check = s.check
    ∧ (decideRevert p s).reader = s.reader ∧ (decideRevert p s).log.lock = s.log.lock
    ∧ (decideRevert p s).log.replay = s.log.replay ∧ (decideRevert p s).log.initStep = s.log.initStep
    ∧ (decideRevert p s).image.serial = s.image.serial ∧ (decideRevert p s).image.imageOk = s.image.imageOk
    ∧ (decideRevert p s).image.state = s.image.state ∧ (decideRevert p s).seq = s.seq
    ∧ (decideRevert p s).flash = s.flash ∧ (decideRevert p s).faults = s.faults := by
  unfold decideRevert; (repeat' split) <;> simp

@[simp] theorem releaseHeld_keeps (s : State) :
    (releaseHeld s).pending = s.pending ∧ (releaseHeld s).mem = s.mem ∧ (releaseHeld s).leftover = s.leftover
    ∧ (releaseHeld s).freeCount = s.freeCount ∧ (releaseHeld s).map.entries = s.map.entries
    ∧ (releaseHeld s).map.epoch = s.map.epoch ∧ (releaseHeld s).map.switch = s.map.switch
    ∧ (releaseHeld s).session = s.session ∧ (releaseHeld s).commit = s.commit ∧ (releaseHeld s).check = s.check
    ∧ (releaseHeld s).reader = s.reader ∧ (releaseHeld s).log = s.log ∧ (releaseHeld s).image = s.image
    ∧ (releaseHeld s).seq = s.seq ∧ (releaseHeld s).faults = s.faults := by
  simp [releaseHeld]

@[simp] theorem commitApplied_keeps (before : Bitmap) (s : State) :
    (commitApplied before s).pending = s.pending ∧ (commitApplied before s).mem = s.mem
    ∧ (commitApplied before s).leftover = s.leftover ∧ (commitApplied before s).freeCount = s.freeCount
    ∧ (commitApplied before s).map = s.map ∧ (commitApplied before s).check = s.check
    ∧ (commitApplied before s).reader = s.reader ∧ (commitApplied before s).log = s.log
    ∧ (commitApplied before s).seq = s.seq ∧ (commitApplied before s).flash = s.flash
    ∧ (commitApplied before s).faults = s.faults := by
  unfold commitApplied; (repeat' split) <;> simp

@[simp] theorem freeRollback_keeps (s : State) :
    (freeRollback s).pending = s.pending ∧ (freeRollback s).mem = s.mem ∧ (freeRollback s).leftover = s.leftover
    ∧ (freeRollback s).freeCount = s.freeCount ∧ (freeRollback s).map = s.map ∧ (freeRollback s).commit = s.commit
    ∧ (freeRollback s).check = s.check ∧ (freeRollback s).reader = s.reader ∧ (freeRollback s).log = s.log
    ∧ (freeRollback s).image = s.image ∧ (freeRollback s).seq = s.seq ∧ (freeRollback s).flash = s.flash
    ∧ (freeRollback s).faults = s.faults ∧ (∀ r, (freeRollback s).port r = s.port r) := by
  unfold freeRollback; (repeat' split) <;> simp

@[simp] theorem rollbackApplied_keeps (s : State) :
    (rollbackApplied s).pending = s.pending ∧ (rollbackApplied s).mem = s.mem
    ∧ (rollbackApplied s).leftover = s.leftover ∧ (rollbackApplied s).freeCount = s.freeCount
    ∧ (rollbackApplied s).map = s.map ∧ (rollbackApplied s).commit = s.commit ∧ (rollbackApplied s).log = s.log
    ∧ (rollbackApplied s).seq.straps = s.seq.straps ∧ (rollbackApplied s).faults = s.faults := by
  unfold rollbackApplied; (repeat' split) <;> simp

@[simp] theorem switchEffect_keeps (s : State) :
    (switchEffect s).pending = s.pending ∧ (switchEffect s).mem = s.mem ∧ (switchEffect s).leftover = s.leftover
    ∧ (switchEffect s).freeCount = s.freeCount ∧ (switchEffect s).log = s.log
    ∧ (switchEffect s).seq.straps = s.seq.straps := by
  unfold switchEffect; (repeat' split) <;> simp

@[simp] theorem requestSwitch_keeps (r : SwitchRequester) (flip : Bitmap) (s : State) :
    (requestSwitch r flip s).pending = s.pending ∧ (requestSwitch r flip s).mem = s.mem
    ∧ (requestSwitch r flip s).leftover = s.leftover ∧ (requestSwitch r flip s).freeCount = s.freeCount
    ∧ (requestSwitch r flip s).log = s.log ∧ (requestSwitch r flip s).seq.straps = s.seq.straps := by
  unfold requestSwitch; (repeat' split) <;> simp

@[simp] theorem openAnswered_keeps (ok : Bool) (s : State) :
    (openAnswered ok s).pending = s.pending ∧ (openAnswered ok s).mem = s.mem
    ∧ (openAnswered ok s).leftover = s.leftover ∧ (openAnswered ok s).freeCount = s.freeCount
    ∧ (openAnswered ok s).map.epoch = s.map.epoch ∧ (openAnswered ok s).map.pinned = s.map.pinned
    ∧ (openAnswered ok s).map.switch = s.map.switch ∧ (openAnswered ok s).commit = s.commit
    ∧ (openAnswered ok s).check = s.check ∧ (openAnswered ok s).reader = s.reader ∧ (openAnswered ok s).log = s.log
    ∧ (openAnswered ok s).image.serial = s.image.serial ∧ (openAnswered ok s).image.imageOk = s.image.imageOk
    ∧ (openAnswered ok s).image.state = s.image.state ∧ (openAnswered ok s).seq = s.seq
    ∧ (openAnswered ok s).faults = s.faults := by
  unfold openAnswered; (repeat' split) <;> simp

@[simp] theorem commitAnswered_keeps (ok : Bool) (s : State) :
    (commitAnswered ok s).pending = s.pending ∧ (commitAnswered ok s).mem = s.mem
    ∧ (commitAnswered ok s).leftover = s.leftover ∧ (commitAnswered ok s).freeCount = s.freeCount
    ∧ (commitAnswered ok s).log = s.log ∧ (commitAnswered ok s).seq.straps = s.seq.straps := by
  unfold commitAnswered; (repeat' split) <;> simp

@[simp] theorem confirmAnswered_keeps (ok : Bool) (s : State) :
    (confirmAnswered ok s).pending = s.pending ∧ (confirmAnswered ok s).mem = s.mem
    ∧ (confirmAnswered ok s).leftover = s.leftover ∧ (confirmAnswered ok s).freeCount = s.freeCount
    ∧ (confirmAnswered ok s).map = s.map ∧ (confirmAnswered ok s).commit = s.commit
    ∧ (confirmAnswered ok s).check = s.check ∧ (confirmAnswered ok s).reader = s.reader
    ∧ (confirmAnswered ok s).log = s.log ∧ (confirmAnswered ok s).image.serial = s.image.serial
    ∧ (confirmAnswered ok s).image.imageOk = s.image.imageOk ∧ (confirmAnswered ok s).seq = s.seq
    ∧ (confirmAnswered ok s).flash = s.flash ∧ (confirmAnswered ok s).faults = s.faults := by
  unfold confirmAnswered; (repeat' split) <;> simp

@[simp] theorem trialAnswered_keeps (count : Fin 4) (ok : Bool) (s : State) :
    (trialAnswered count ok s).pending = s.pending ∧ (trialAnswered count ok s).mem = s.mem
    ∧ (trialAnswered count ok s).leftover = s.leftover ∧ (trialAnswered count ok s).freeCount = s.freeCount
    ∧ (trialAnswered count ok s).map = s.map ∧ (trialAnswered count ok s).session = s.session
    ∧ (trialAnswered count ok s).commit = s.commit ∧ (trialAnswered count ok s).check = s.check
    ∧ (trialAnswered count ok s).reader = s.reader ∧ (trialAnswered count ok s).log = s.log
    ∧ (trialAnswered count ok s).image.serial = s.image.serial
    ∧ (trialAnswered count ok s).image.imageOk = s.image.imageOk
    ∧ (trialAnswered count ok s).image.state = s.image.state ∧ (trialAnswered count ok s).seq.straps = s.seq.straps
    ∧ (trialAnswered count ok s).flash = s.flash ∧ (trialAnswered count ok s).faults = s.faults
    ∧ (∀ r, (trialAnswered count ok s).port r = s.port r) := by
  unfold trialAnswered; (repeat' split) <;> simp

@[simp] theorem rollbackAnswered_keeps (ok : Bool) (s : State) :
    (rollbackAnswered ok s).pending = s.pending ∧ (rollbackAnswered ok s).mem = s.mem
    ∧ (rollbackAnswered ok s).leftover = s.leftover ∧ (rollbackAnswered ok s).freeCount = s.freeCount
    ∧ (rollbackAnswered ok s).log = s.log ∧ (rollbackAnswered ok s).seq.straps = s.seq.straps := by
  unfold rollbackAnswered; (repeat' split) <;> simp

@[simp] theorem answerAppend_keeps (b : RecordBody) (ok : Bool) (s : State) :
    (answerAppend b ok s).pending = s.pending ∧ (answerAppend b ok s).mem = s.mem
    ∧ (answerAppend b ok s).leftover = s.leftover ∧ (answerAppend b ok s).freeCount = s.freeCount
    ∧ (answerAppend b ok s).log = s.log ∧ (answerAppend b ok s).seq.straps = s.seq.straps := by
  unfold answerAppend; (repeat' split) <;> simp

@[simp] theorem trialStep_keeps (s : State) :
    (trialStep s).pending = s.pending ∧ (trialStep s).mem = s.mem ∧ (trialStep s).leftover = s.leftover
    ∧ (trialStep s).freeCount = s.freeCount ∧ (trialStep s).map = s.map ∧ (trialStep s).session = s.session
    ∧ (trialStep s).commit = s.commit ∧ (trialStep s).check = s.check ∧ (trialStep s).reader = s.reader
    ∧ (trialStep s).log.lock = s.log.lock ∧ (trialStep s).log.replay = s.log.replay
    ∧ (trialStep s).log.initStep = s.log.initStep ∧ (trialStep s).image.serial = s.image.serial
    ∧ (trialStep s).image.imageOk = s.image.imageOk ∧ (trialStep s).image.state = s.image.state
    ∧ (trialStep s).seq.straps = s.seq.straps ∧ (trialStep s).flash = s.flash
    ∧ (∀ r, (trialStep s).port r = s.port r) := by
  unfold trialStep; (repeat' split) <;> simp

@[simp] theorem logFail_keeps (s : State) :
    (logFail s).pending = s.pending ∧ (logFail s).mem = s.mem ∧ (logFail s).leftover = s.leftover
    ∧ (logFail s).freeCount = s.freeCount ∧ (logFail s).map = s.map ∧ (logFail s).session = s.session
    ∧ (logFail s).commit = s.commit ∧ (logFail s).check = s.check ∧ (logFail s).reader = s.reader
    ∧ (logFail s).log.replay = s.log.replay ∧ (logFail s).log.initStep = s.log.initStep ∧ (logFail s).image = s.image
    ∧ (logFail s).seq = s.seq ∧ (logFail s).flash = s.flash ∧ (∀ r, (logFail s).port r = s.port r) := by
  unfold logFail; (repeat' split) <;> simp

@[simp] theorem logCorrupt_keeps (s : State) :
    (logCorrupt s).pending = s.pending ∧ (logCorrupt s).mem = s.mem ∧ (logCorrupt s).leftover = s.leftover
    ∧ (logCorrupt s).freeCount = s.freeCount ∧ (logCorrupt s).map = s.map ∧ (logCorrupt s).session = s.session
    ∧ (logCorrupt s).commit = s.commit ∧ (logCorrupt s).check = s.check ∧ (logCorrupt s).reader = s.reader
    ∧ (logCorrupt s).log.replay = s.log.replay ∧ (logCorrupt s).log.initStep = s.log.initStep
    ∧ (logCorrupt s).image = s.image ∧ (logCorrupt s).seq = s.seq ∧ (logCorrupt s).flash = s.flash
    ∧ (∀ r, (logCorrupt s).port r = s.port r) := by
  unfold logCorrupt; (repeat' split) <;> simp

@[simp] theorem popAppend_keeps (s : State) :
    (popAppend s).pending = s.pending ∧ (popAppend s).mem = s.mem ∧ (popAppend s).leftover = s.leftover
    ∧ (popAppend s).freeCount = s.freeCount ∧ (popAppend s).map = s.map ∧ (popAppend s).session = s.session
    ∧ (popAppend s).commit = s.commit ∧ (popAppend s).check = s.check ∧ (popAppend s).reader = s.reader
    ∧ (popAppend s).log.lock = s.log.lock ∧ (popAppend s).log.replay = s.log.replay
    ∧ (popAppend s).log.initStep = s.log.initStep ∧ (popAppend s).image = s.image ∧ (popAppend s).seq = s.seq
    ∧ (popAppend s).flash = s.flash ∧ (popAppend s).faults = s.faults ∧ (∀ r, (popAppend s).port r = s.port r) := by
  and_intros <;> first | rfl | (intro r; cases r <;> rfl)

@[simp] theorem refuseAppend_keeps (b : RecordBody) (s : State) :
    (refuseAppend b s).pending = s.pending ∧ (refuseAppend b s).mem = s.mem
    ∧ (refuseAppend b s).leftover = s.leftover ∧ (refuseAppend b s).freeCount = s.freeCount
    ∧ (refuseAppend b s).log.lock = s.log.lock ∧ (refuseAppend b s).log.replay = s.log.replay
    ∧ (refuseAppend b s).log.initStep = s.log.initStep ∧ (refuseAppend b s).seq.straps = s.seq.straps := by
  simp [refuseAppend]

@[simp] theorem failAppend_keeps (b : RecordBody) (s : State) :
    (failAppend b s).pending = s.pending ∧ (failAppend b s).mem = s.mem ∧ (failAppend b s).leftover = s.leftover
    ∧ (failAppend b s).freeCount = s.freeCount ∧ (failAppend b s).log.replay = s.log.replay
    ∧ (failAppend b s).log.initStep = s.log.initStep ∧ (failAppend b s).seq.straps = s.seq.straps := by
  simp [failAppend]

@[simp] theorem succeedAppend_keeps (b : RecordBody) (s : State) :
    (succeedAppend b s).pending = s.pending ∧ (succeedAppend b s).mem = s.mem
    ∧ (succeedAppend b s).leftover = s.leftover ∧ (succeedAppend b s).freeCount = s.freeCount
    ∧ (succeedAppend b s).log.lock = s.log.lock ∧ (succeedAppend b s).log.replay = s.log.replay
    ∧ (succeedAppend b s).log.initStep = s.log.initStep ∧ (succeedAppend b s).seq.straps = s.seq.straps := by
  simp [succeedAppend]

@[simp] theorem writeRecord_keeps (stage : AppendStage) (b : RecordBody) (s : State) :
    (writeRecord stage b s).pending = s.pending ∧ (writeRecord stage b s).mem = s.mem
    ∧ (writeRecord stage b s).leftover = s.leftover ∧ (writeRecord stage b s).freeCount = s.freeCount
    ∧ (writeRecord stage b s).map = s.map ∧ (writeRecord stage b s).session = s.session
    ∧ (writeRecord stage b s).commit = s.commit ∧ (writeRecord stage b s).check = s.check
    ∧ (writeRecord stage b s).reader = s.reader ∧ (writeRecord stage b s).log.lock = s.log.lock
    ∧ (writeRecord stage b s).log.replay = s.log.replay ∧ (writeRecord stage b s).log.initStep = s.log.initStep
    ∧ (writeRecord stage b s).image = s.image ∧ (writeRecord stage b s).seq = s.seq
    ∧ (writeRecord stage b s).faults = s.faults ∧ (∀ r, (writeRecord stage b s).port r = s.port r) := by
  and_intros <;> first | rfl | (intro r; cases r <;> rfl)

@[simp] theorem compactOrRefuse_keeps (retry : Bool) (b : RecordBody) (s : State) :
    (compactOrRefuse retry b s).pending = s.pending ∧ (compactOrRefuse retry b s).mem = s.mem
    ∧ (compactOrRefuse retry b s).leftover = s.leftover ∧ (compactOrRefuse retry b s).freeCount = s.freeCount
    ∧ (compactOrRefuse retry b s).log.replay = s.log.replay
    ∧ (compactOrRefuse retry b s).log.initStep = s.log.initStep
    ∧ (compactOrRefuse retry b s).seq.straps = s.seq.straps := by
  unfold compactOrRefuse; (repeat' split) <;> simp

@[simp] theorem startAppend_keeps (b : RecordBody) (s : State) :
    (startAppend b s).pending = s.pending ∧ (startAppend b s).mem = s.mem ∧ (startAppend b s).leftover = s.leftover
    ∧ (startAppend b s).freeCount = s.freeCount ∧ (startAppend b s).log.replay = s.log.replay
    ∧ (startAppend b s).log.initStep = s.log.initStep ∧ (startAppend b s).seq.straps = s.seq.straps := by
  unfold startAppend; (repeat' split) <;> simp

@[simp] theorem recordDone_keeps (ok : Bool) (s : State) :
    (recordDone ok s).pending = s.pending ∧ (recordDone ok s).mem = s.mem ∧ (recordDone ok s).leftover = s.leftover
    ∧ (recordDone ok s).freeCount = s.freeCount ∧ (recordDone ok s).log.lock = s.log.lock
    ∧ (recordDone ok s).log.replay = s.log.replay ∧ (recordDone ok s).log.initStep = s.log.initStep
    ∧ (recordDone ok s).seq.straps = s.seq.straps := by
  unfold recordDone; (repeat' split) <;> simp

@[simp] theorem readBackDone_keeps (bs : List Byte) (s : State) :
    (readBackDone bs s).pending = s.pending ∧ (readBackDone bs s).mem = s.mem
    ∧ (readBackDone bs s).leftover = s.leftover ∧ (readBackDone bs s).freeCount = s.freeCount
    ∧ (readBackDone bs s).log.replay = s.log.replay ∧ (readBackDone bs s).log.initStep = s.log.initStep
    ∧ (readBackDone bs s).seq.straps = s.seq.straps := by
  unfold readBackDone; (repeat' split) <;> simp

@[simp] theorem compactionDone_keeps (w : Append) (b : RecordBody) (step : AreaStep) (ok : Bool) (s : State) :
    (compactionDone w b step ok s).pending = s.pending ∧ (compactionDone w b step ok s).mem = s.mem
    ∧ (compactionDone w b step ok s).leftover = s.leftover ∧ (compactionDone w b step ok s).freeCount = s.freeCount
    ∧ (compactionDone w b step ok s).log.replay = s.log.replay
    ∧ (compactionDone w b step ok s).log.initStep = s.log.initStep
    ∧ (compactionDone w b step ok s).seq.straps = s.seq.straps := by
  unfold compactionDone; (repeat' split) <;> simp

@[simp] theorem handOver_keeps (sm : LogSummary) (s : State) :
    (handOver sm s).pending = s.pending ∧ (handOver sm s).mem = s.mem ∧ (handOver sm s).leftover = s.leftover
    ∧ (handOver sm s).freeCount = s.freeCount ∧ (handOver sm s).map.epoch = s.map.epoch
    ∧ (handOver sm s).map.pinned = s.map.pinned ∧ (handOver sm s).map.switch = s.map.switch
    ∧ (handOver sm s).session = s.session ∧ (handOver sm s).commit = s.commit ∧ (handOver sm s).check = s.check
    ∧ (handOver sm s).reader = s.reader ∧ (handOver sm s).log = s.log
    ∧ (handOver sm s).image.imageOk = s.image.imageOk ∧ (handOver sm s).seq = s.seq ∧ (handOver sm s).flash = s.flash
    ∧ (handOver sm s).faults = s.faults ∧ (∀ r, (handOver sm s).port r = s.port r) := by
  and_intros <;> first | rfl | (intro r; cases r <;> rfl)

@[simp] theorem initDone_keeps (step : AreaStep) (ok : Bool) (s : State) :
    (initDone step ok s).pending = s.pending ∧ (initDone step ok s).mem = s.mem
    ∧ (initDone step ok s).leftover = s.leftover ∧ (initDone step ok s).freeCount = s.freeCount
    ∧ (initDone step ok s).map.epoch = s.map.epoch ∧ (initDone step ok s).map.pinned = s.map.pinned
    ∧ (initDone step ok s).map.switch = s.map.switch ∧ (initDone step ok s).session = s.session
    ∧ (initDone step ok s).commit = s.commit ∧ (initDone step ok s).check = s.check
    ∧ (initDone step ok s).reader = s.reader ∧ (initDone step ok s).log.replay = s.log.replay
    ∧ (initDone step ok s).image.imageOk = s.image.imageOk ∧ (initDone step ok s).seq.straps = s.seq.straps
    ∧ (∀ r, (initDone step ok s).port r = s.port r) := by
  unfold initDone; (repeat' split) <;> simp

@[simp] theorem areaStepDone_keeps (step : AreaStep) (ok : Bool) (s : State) :
    (areaStepDone step ok s).pending = s.pending ∧ (areaStepDone step ok s).mem = s.mem
    ∧ (areaStepDone step ok s).leftover = s.leftover ∧ (areaStepDone step ok s).freeCount = s.freeCount
    ∧ (areaStepDone step ok s).log.replay = s.log.replay ∧ (areaStepDone step ok s).seq.straps = s.seq.straps := by
  unfold areaStepDone; (repeat' split) <;> simp

@[simp] theorem logProgramDone_keeps (ok : Bool) (s : State) :
    (logProgramDone ok s).pending = s.pending ∧ (logProgramDone ok s).mem = s.mem
    ∧ (logProgramDone ok s).leftover = s.leftover ∧ (logProgramDone ok s).freeCount = s.freeCount
    ∧ (logProgramDone ok s).log.replay = s.log.replay ∧ (logProgramDone ok s).seq.straps = s.seq.straps := by
  unfold logProgramDone; (repeat' split) <;> simp

@[simp] theorem replayRead_keeps (addr : Nat) (r : Replay) (s : State) :
    (replayRead addr r s).pending = s.pending ∧ (replayRead addr r s).mem = s.mem
    ∧ (replayRead addr r s).leftover = s.leftover ∧ (replayRead addr r s).freeCount = s.freeCount
    ∧ (replayRead addr r s).map = s.map ∧ (replayRead addr r s).session = s.session
    ∧ (replayRead addr r s).commit = s.commit ∧ (replayRead addr r s).check = s.check
    ∧ (replayRead addr r s).reader = s.reader ∧ (replayRead addr r s).log.lock = s.log.lock
    ∧ (replayRead addr r s).log.initStep = s.log.initStep ∧ (replayRead addr r s).image = s.image
    ∧ (replayRead addr r s).seq = s.seq ∧ (replayRead addr r s).faults = s.faults := by
  and_intros <;> rfl

@[simp] theorem endScan_keeps (result : ScanResult) (ph : StartPhase) (s : State) :
    (endScan result ph s).pending = s.pending ∧ (endScan result ph s).mem = s.mem
    ∧ (endScan result ph s).leftover = s.leftover ∧ (endScan result ph s).freeCount = s.freeCount
    ∧ (endScan result ph s).map = s.map ∧ (endScan result ph s).session = s.session
    ∧ (endScan result ph s).commit = s.commit ∧ (endScan result ph s).check = s.check
    ∧ (endScan result ph s).reader = s.reader ∧ (endScan result ph s).log.lock = s.log.lock
    ∧ (endScan result ph s).log.initStep = s.log.initStep ∧ (endScan result ph s).image = s.image
    ∧ (endScan result ph s).seq.straps = s.seq.straps ∧ (endScan result ph s).flash = s.flash
    ∧ (endScan result ph s).faults = s.faults ∧ (∀ r, (endScan result ph s).port r = s.port r) := by
  and_intros <;> first | rfl | (intro r; cases r <;> rfl)

@[simp] theorem endReplay_keeps (w : ReplayWalk) (s : State) :
    (endReplay w s).pending = s.pending ∧ (endReplay w s).mem = s.mem ∧ (endReplay w s).leftover = s.leftover
    ∧ (endReplay w s).freeCount = s.freeCount ∧ (endReplay w s).map.epoch = s.map.epoch
    ∧ (endReplay w s).map.pinned = s.map.pinned ∧ (endReplay w s).map.switch = s.map.switch
    ∧ (endReplay w s).session = s.session ∧ (endReplay w s).commit = s.commit ∧ (endReplay w s).check = s.check
    ∧ (endReplay w s).reader = s.reader ∧ (endReplay w s).log.lock = s.log.lock
    ∧ (endReplay w s).log.initStep = s.log.initStep ∧ (endReplay w s).image.imageOk = s.image.imageOk
    ∧ (endReplay w s).seq.straps = s.seq.straps ∧ (endReplay w s).flash = s.flash ∧ (endReplay w s).faults = s.faults
    ∧ (∀ r, (endReplay w s).port r = s.port r) := by
  and_intros <;> first | rfl | (intro r; cases r <;> rfl)

@[simp] theorem chooseArea_keeps (h0 b0 h1 b1 : List Byte) (s : State) :
    (chooseArea h0 b0 h1 b1 s).pending = s.pending ∧ (chooseArea h0 b0 h1 b1 s).mem = s.mem
    ∧ (chooseArea h0 b0 h1 b1 s).leftover = s.leftover ∧ (chooseArea h0 b0 h1 b1 s).freeCount = s.freeCount
    ∧ (chooseArea h0 b0 h1 b1 s).map.epoch = s.map.epoch ∧ (chooseArea h0 b0 h1 b1 s).map.pinned = s.map.pinned
    ∧ (chooseArea h0 b0 h1 b1 s).map.switch = s.map.switch ∧ (chooseArea h0 b0 h1 b1 s).session = s.session
    ∧ (chooseArea h0 b0 h1 b1 s).commit = s.commit ∧ (chooseArea h0 b0 h1 b1 s).check = s.check
    ∧ (chooseArea h0 b0 h1 b1 s).reader = s.reader ∧ (chooseArea h0 b0 h1 b1 s).log.initStep = s.log.initStep
    ∧ (chooseArea h0 b0 h1 b1 s).image.imageOk = s.image.imageOk
    ∧ (chooseArea h0 b0 h1 b1 s).seq.straps = s.seq.straps := by
  unfold chooseArea; (repeat' split) <;> simp

@[simp] theorem replayTake_keeps (bs : List Byte) (s : State) :
    (replayTake bs s).pending = s.pending ∧ (replayTake bs s).mem = s.mem ∧ (replayTake bs s).leftover = s.leftover
    ∧ (replayTake bs s).freeCount = s.freeCount ∧ (replayTake bs s).map.epoch = s.map.epoch
    ∧ (replayTake bs s).map.pinned = s.map.pinned ∧ (replayTake bs s).map.switch = s.map.switch
    ∧ (replayTake bs s).session = s.session ∧ (replayTake bs s).commit = s.commit ∧ (replayTake bs s).check = s.check
    ∧ (replayTake bs s).reader = s.reader ∧ (replayTake bs s).log.initStep = s.log.initStep
    ∧ (replayTake bs s).image.imageOk = s.image.imageOk ∧ (replayTake bs s).seq.straps = s.seq.straps := by
  unfold replayTake; dsimp only; (repeat' split) <;> simp

@[simp] theorem ownerProgramRequest_keeps (p : Port) (a : LogicalAddr) (data : List Byte) (s : State) :
    (ownerProgramRequest p a data s).pending = s.pending ∧ (ownerProgramRequest p a data s).mem = s.mem
    ∧ (ownerProgramRequest p a data s).leftover = s.leftover
    ∧ (ownerProgramRequest p a data s).freeCount = s.freeCount
    ∧ (ownerProgramRequest p a data s).map.epoch = s.map.epoch
    ∧ (ownerProgramRequest p a data s).map.pinned = s.map.pinned
    ∧ (ownerProgramRequest p a data s).map.switch = s.map.switch ∧ (ownerProgramRequest p a data s).commit = s.commit
    ∧ (ownerProgramRequest p a data s).check = s.check ∧ (ownerProgramRequest p a data s).reader = s.reader
    ∧ (ownerProgramRequest p a data s).log = s.log ∧ (ownerProgramRequest p a data s).image = s.image
    ∧ (ownerProgramRequest p a data s).seq = s.seq ∧ (ownerProgramRequest p a data s).faults = s.faults := by
  unfold ownerProgramRequest; (repeat' split) <;> simp

@[simp] theorem otherProgram_keeps (p : Port) (a : LogicalAddr) (data : List Byte) (s : State) :
    (otherProgram p a data s).pending = s.pending ∧ (otherProgram p a data s).mem = s.mem
    ∧ (otherProgram p a data s).leftover = s.leftover ∧ (otherProgram p a data s).freeCount = s.freeCount
    ∧ (otherProgram p a data s).map = s.map ∧ (otherProgram p a data s).commit = s.commit
    ∧ (otherProgram p a data s).check = s.check ∧ (otherProgram p a data s).reader = s.reader
    ∧ (otherProgram p a data s).log.lock = s.log.lock ∧ (otherProgram p a data s).log.replay = s.log.replay
    ∧ (otherProgram p a data s).log.initStep = s.log.initStep
    ∧ (otherProgram p a data s).image.serial = s.image.serial
    ∧ (otherProgram p a data s).image.imageOk = s.image.imageOk ∧ (otherProgram p a data s).seq = s.seq
    ∧ (otherProgram p a data s).flash = s.flash ∧ (otherProgram p a data s).faults = s.faults := by
  unfold otherProgram; (repeat' split) <;> simp

@[simp] theorem passOn_keeps (p : Port) (f : InFlight) (s : State) :
    (passOn p f s).pending = s.pending ∧ (passOn p f s).mem = s.mem ∧ (passOn p f s).leftover = s.leftover
    ∧ (passOn p f s).freeCount = s.freeCount ∧ (passOn p f s).map = s.map ∧ (passOn p f s).session = s.session
    ∧ (passOn p f s).commit = s.commit ∧ (passOn p f s).check = s.check ∧ (passOn p f s).reader = s.reader
    ∧ (passOn p f s).log = s.log ∧ (passOn p f s).image = s.image ∧ (passOn p f s).seq = s.seq
    ∧ (passOn p f s).flash = s.flash ∧ (passOn p f s).faults = s.faults := by
  simp [passOn]

@[simp] theorem sessionProgram_keeps (p : Port) (a : LogicalAddr) (data : List Byte) (s : State) :
    (sessionProgram p a data s).pending = s.pending ∧ (sessionProgram p a data s).mem = s.mem
    ∧ (sessionProgram p a data s).leftover = s.leftover ∧ (sessionProgram p a data s).freeCount = s.freeCount
    ∧ (sessionProgram p a data s).map.epoch = s.map.epoch ∧ (sessionProgram p a data s).map.pinned = s.map.pinned
    ∧ (sessionProgram p a data s).map.switch = s.map.switch ∧ (sessionProgram p a data s).commit = s.commit
    ∧ (sessionProgram p a data s).check = s.check ∧ (sessionProgram p a data s).reader = s.reader
    ∧ (sessionProgram p a data s).log.lock = s.log.lock ∧ (sessionProgram p a data s).log.replay = s.log.replay
    ∧ (sessionProgram p a data s).log.initStep = s.log.initStep
    ∧ (sessionProgram p a data s).image.serial = s.image.serial
    ∧ (sessionProgram p a data s).image.imageOk = s.image.imageOk ∧ (sessionProgram p a data s).seq = s.seq
    ∧ (sessionProgram p a data s).faults = s.faults := by
  unfold sessionProgram; (repeat' split) <;> simp

@[simp] theorem takeProgram_keeps (p : Port) (a : LogicalAddr) (data : List Byte) (s : State) :
    (takeProgram p a data s).pending = s.pending ∧ (takeProgram p a data s).mem = s.mem
    ∧ (takeProgram p a data s).leftover = s.leftover ∧ (takeProgram p a data s).freeCount = s.freeCount
    ∧ (takeProgram p a data s).map.epoch = s.map.epoch ∧ (takeProgram p a data s).map.pinned = s.map.pinned
    ∧ (takeProgram p a data s).map.switch = s.map.switch ∧ (takeProgram p a data s).commit = s.commit
    ∧ (takeProgram p a data s).check = s.check ∧ (takeProgram p a data s).reader = s.reader
    ∧ (takeProgram p a data s).log.lock = s.log.lock ∧ (takeProgram p a data s).log.replay = s.log.replay
    ∧ (takeProgram p a data s).log.initStep = s.log.initStep ∧ (takeProgram p a data s).image.serial = s.image.serial
    ∧ (takeProgram p a data s).image.imageOk = s.image.imageOk ∧ (takeProgram p a data s).seq = s.seq
    ∧ (takeProgram p a data s).faults = s.faults := by
  unfold takeProgram takeWrite; (repeat' split) <;> simp

@[simp] theorem takeArrayRead_keeps (p : Port) (a : LogicalAddr) (clocks : Nat) (s : State) :
    (takeArrayRead p a clocks s).pending = s.pending ∧ (takeArrayRead p a clocks s).mem = s.mem
    ∧ (takeArrayRead p a clocks s).leftover = s.leftover ∧ (takeArrayRead p a clocks s).freeCount = s.freeCount
    ∧ (takeArrayRead p a clocks s).map.entries = s.map.entries ∧ (takeArrayRead p a clocks s).map.epoch = s.map.epoch
    ∧ (takeArrayRead p a clocks s).map.switch = s.map.switch ∧ (takeArrayRead p a clocks s).session = s.session
    ∧ (takeArrayRead p a clocks s).commit = s.commit ∧ (takeArrayRead p a clocks s).check = s.check
    ∧ (takeArrayRead p a clocks s).reader = s.reader ∧ (takeArrayRead p a clocks s).log = s.log
    ∧ (takeArrayRead p a clocks s).image = s.image ∧ (takeArrayRead p a clocks s).seq = s.seq
    ∧ (takeArrayRead p a clocks s).faults = s.faults := by
  simp [takeArrayRead]

@[simp] theorem putOut_keeps (p : Port) (bytes : List Byte) (s : State) :
    (putOut p bytes s).pending = s.pending ∧ (putOut p bytes s).mem = s.mem
    ∧ (putOut p bytes s).leftover = s.leftover ∧ (putOut p bytes s).freeCount = s.freeCount
    ∧ (putOut p bytes s).map = s.map ∧ (putOut p bytes s).session = s.session ∧ (putOut p bytes s).commit = s.commit
    ∧ (putOut p bytes s).check = s.check ∧ (putOut p bytes s).reader = s.reader ∧ (putOut p bytes s).log = s.log
    ∧ (putOut p bytes s).image = s.image ∧ (putOut p bytes s).seq = s.seq ∧ (putOut p bytes s).flash = s.flash
    ∧ (putOut p bytes s).faults = s.faults := by
  simp [putOut]

@[simp] theorem putOnes_keeps (p : Port) (clocks : Nat) (s : State) :
    (putOnes p clocks s).pending = s.pending ∧ (putOnes p clocks s).mem = s.mem
    ∧ (putOnes p clocks s).leftover = s.leftover ∧ (putOnes p clocks s).freeCount = s.freeCount
    ∧ (putOnes p clocks s).map = s.map ∧ (putOnes p clocks s).session = s.session
    ∧ (putOnes p clocks s).commit = s.commit ∧ (putOnes p clocks s).check = s.check
    ∧ (putOnes p clocks s).reader = s.reader ∧ (putOnes p clocks s).log = s.log
    ∧ (putOnes p clocks s).image = s.image ∧ (putOnes p clocks s).seq = s.seq ∧ (putOnes p clocks s).flash = s.flash
    ∧ (putOnes p clocks s).faults = s.faults := by
  simp [putOnes]

@[simp] theorem takeSoftReset_keeps (p : Port) (s : State) :
    (takeSoftReset p s).pending = s.pending ∧ (takeSoftReset p s).mem = s.mem
    ∧ (takeSoftReset p s).leftover = s.leftover ∧ (takeSoftReset p s).freeCount = s.freeCount
    ∧ (takeSoftReset p s).map.epoch = s.map.epoch ∧ (takeSoftReset p s).map.pinned = s.map.pinned
    ∧ (takeSoftReset p s).map.switch = s.map.switch ∧ (takeSoftReset p s).commit = s.commit
    ∧ (takeSoftReset p s).check = s.check ∧ (takeSoftReset p s).reader = s.reader ∧ (takeSoftReset p s).log = s.log
    ∧ (takeSoftReset p s).image = s.image ∧ (takeSoftReset p s).seq = s.seq ∧ (takeSoftReset p s).flash = s.flash
    ∧ (takeSoftReset p s).faults = s.faults := by
  unfold takeSoftReset; dsimp only; (repeat' split) <;> simp

@[simp] theorem takeReady_keeps (p : Port) (r : HostRequest) (s : State) :
    (takeReady p r s).pending = s.pending ∧ (takeReady p r s).mem = s.mem ∧ (takeReady p r s).leftover = s.leftover
    ∧ (takeReady p r s).freeCount = s.freeCount ∧ (takeReady p r s).map.epoch = s.map.epoch
    ∧ (takeReady p r s).map.switch = s.map.switch ∧ (takeReady p r s).commit = s.commit
    ∧ (takeReady p r s).check = s.check ∧ (takeReady p r s).reader = s.reader
    ∧ (takeReady p r s).log.lock = s.log.lock ∧ (takeReady p r s).log.replay = s.log.replay
    ∧ (takeReady p r s).log.initStep = s.log.initStep ∧ (takeReady p r s).image.serial = s.image.serial
    ∧ (takeReady p r s).image.imageOk = s.image.imageOk ∧ (takeReady p r s).seq = s.seq
    ∧ (takeReady p r s).faults = s.faults := by
  unfold takeReady takeWrite; (repeat' split) <;> simp

@[simp] theorem refuseBusy_keeps (p : Port) (r : HostRequest) (s : State) :
    (refuseBusy p r s).pending = s.pending ∧ (refuseBusy p r s).mem = s.mem
    ∧ (refuseBusy p r s).leftover = s.leftover ∧ (refuseBusy p r s).freeCount = s.freeCount
    ∧ (refuseBusy p r s).map = s.map ∧ (refuseBusy p r s).session = s.session ∧ (refuseBusy p r s).commit = s.commit
    ∧ (refuseBusy p r s).check = s.check ∧ (refuseBusy p r s).reader = s.reader ∧ (refuseBusy p r s).log = s.log
    ∧ (refuseBusy p r s).image = s.image ∧ (refuseBusy p r s).seq = s.seq ∧ (refuseBusy p r s).flash = s.flash
    ∧ (refuseBusy p r s).faults = s.faults := by
  simp [refuseBusy]

@[simp] theorem takeBusy_keeps (p : Port) (r : HostRequest) (s : State) :
    (takeBusy p r s).pending = s.pending ∧ (takeBusy p r s).mem = s.mem ∧ (takeBusy p r s).leftover = s.leftover
    ∧ (takeBusy p r s).freeCount = s.freeCount ∧ (takeBusy p r s).map.epoch = s.map.epoch
    ∧ (takeBusy p r s).map.pinned = s.map.pinned ∧ (takeBusy p r s).map.switch = s.map.switch
    ∧ (takeBusy p r s).commit = s.commit ∧ (takeBusy p r s).check = s.check ∧ (takeBusy p r s).reader = s.reader
    ∧ (takeBusy p r s).log = s.log ∧ (takeBusy p r s).image = s.image ∧ (takeBusy p r s).seq = s.seq
    ∧ (takeBusy p r s).flash = s.flash ∧ (takeBusy p r s).faults = s.faults := by
  unfold takeBusy; (repeat' split) <;> simp

@[simp] theorem takeRequest_keeps (p : Port) (r : HostRequest) (s : State) :
    (takeRequest p r s).pending = s.pending ∧ (takeRequest p r s).mem = s.mem
    ∧ (takeRequest p r s).leftover = s.leftover ∧ (takeRequest p r s).freeCount = s.freeCount
    ∧ (takeRequest p r s).map.epoch = s.map.epoch ∧ (takeRequest p r s).map.switch = s.map.switch
    ∧ (takeRequest p r s).commit = s.commit ∧ (takeRequest p r s).check = s.check
    ∧ (takeRequest p r s).reader = s.reader ∧ (takeRequest p r s).log.lock = s.log.lock
    ∧ (takeRequest p r s).log.replay = s.log.replay ∧ (takeRequest p r s).log.initStep = s.log.initStep
    ∧ (takeRequest p r s).image.serial = s.image.serial ∧ (takeRequest p r s).image.imageOk = s.image.imageOk
    ∧ (takeRequest p r s).seq = s.seq ∧ (takeRequest p r s).faults = s.faults := by
  unfold takeRequest; (repeat' split) <;> simp

@[simp] theorem holdRequest_keeps (p : Port) (kept : List HostRequest) (r : HostRequest) (s : State) :
    (holdRequest p kept r s).pending = s.pending ∧ (holdRequest p kept r s).mem = s.mem
    ∧ (holdRequest p kept r s).leftover = s.leftover ∧ (holdRequest p kept r s).freeCount = s.freeCount
    ∧ (holdRequest p kept r s).map = s.map ∧ (holdRequest p kept r s).session = s.session
    ∧ (holdRequest p kept r s).commit = s.commit ∧ (holdRequest p kept r s).check = s.check
    ∧ (holdRequest p kept r s).reader = s.reader ∧ (holdRequest p kept r s).log = s.log
    ∧ (holdRequest p kept r s).image = s.image ∧ (holdRequest p kept r s).seq = s.seq
    ∧ (holdRequest p kept r s).flash = s.flash ∧ (holdRequest p kept r s).faults = s.faults := by
  simp [holdRequest]

@[simp] theorem arrive_keeps (p : Port) (r : HostRequest) (s : State) :
    (arrive p r s).pending = s.pending ∧ (arrive p r s).mem = s.mem ∧ (arrive p r s).leftover = s.leftover
    ∧ (arrive p r s).freeCount = s.freeCount ∧ (arrive p r s).map.epoch = s.map.epoch
    ∧ (arrive p r s).map.switch = s.map.switch ∧ (arrive p r s).commit = s.commit ∧ (arrive p r s).check = s.check
    ∧ (arrive p r s).reader = s.reader ∧ (arrive p r s).log.lock = s.log.lock
    ∧ (arrive p r s).log.replay = s.log.replay ∧ (arrive p r s).log.initStep = s.log.initStep
    ∧ (arrive p r s).image.serial = s.image.serial ∧ (arrive p r s).image.imageOk = s.image.imageOk
    ∧ (arrive p r s).seq = s.seq ∧ (arrive p r s).faults = s.faults := by
  unfold arrive; (repeat' split) <;> simp

@[simp] theorem forgetHeld_keeps (p : Port) (s : State) :
    (forgetHeld p s).pending = s.pending ∧ (forgetHeld p s).mem = s.mem ∧ (forgetHeld p s).leftover = s.leftover
    ∧ (forgetHeld p s).freeCount = s.freeCount ∧ (forgetHeld p s).map = s.map ∧ (forgetHeld p s).session = s.session
    ∧ (forgetHeld p s).commit = s.commit ∧ (forgetHeld p s).check = s.check ∧ (forgetHeld p s).reader = s.reader
    ∧ (forgetHeld p s).log = s.log ∧ (forgetHeld p s).image = s.image ∧ (forgetHeld p s).seq = s.seq
    ∧ (forgetHeld p s).flash = s.flash ∧ (forgetHeld p s).faults = s.faults := by
  unfold forgetHeld; (repeat' split) <;> simp

@[simp] theorem releasePort_keeps (p : Port) (s : State) :
    (releasePort p s).pending = s.pending ∧ (releasePort p s).mem = s.mem ∧ (releasePort p s).leftover = s.leftover
    ∧ (releasePort p s).freeCount = s.freeCount ∧ (releasePort p s).map = s.map
    ∧ (releasePort p s).session = s.session ∧ (releasePort p s).commit = s.commit ∧ (releasePort p s).check = s.check
    ∧ (releasePort p s).reader = s.reader ∧ (releasePort p s).log = s.log ∧ (releasePort p s).image = s.image
    ∧ (releasePort p s).seq = s.seq ∧ (releasePort p s).flash = s.flash ∧ (releasePort p s).faults = s.faults := by
  simp [releasePort]

@[simp] theorem chunkTaken_keeps (r : Reader) (bytes : List Byte) (s : State) :
    (chunkTaken r bytes s).pending = s.pending ∧ (chunkTaken r bytes s).mem = s.mem
    ∧ (chunkTaken r bytes s).leftover = s.leftover ∧ (chunkTaken r bytes s).freeCount = s.freeCount
    ∧ (chunkTaken r bytes s).map = s.map ∧ (chunkTaken r bytes s).session = s.session
    ∧ (chunkTaken r bytes s).commit = s.commit ∧ (chunkTaken r bytes s).log = s.log
    ∧ (chunkTaken r bytes s).image = s.image ∧ (chunkTaken r bytes s).seq = s.seq
    ∧ (chunkTaken r bytes s).faults = s.faults := by
  unfold chunkTaken; dsimp only; (repeat' split) <;> simp

@[simp] theorem programTimedOut_keeps (c : Client) (s : State) :
    (programTimedOut c s).pending = s.pending ∧ (programTimedOut c s).mem = s.mem
    ∧ (programTimedOut c s).leftover = s.leftover ∧ (programTimedOut c s).freeCount = s.freeCount
    ∧ (programTimedOut c s).log.replay = s.log.replay ∧ (programTimedOut c s).seq.straps = s.seq.straps := by
  unfold programTimedOut; (repeat' split) <;> simp

@[simp] theorem eraseTimedOut_keeps (e : FlashErase) (s : State) :
    (eraseTimedOut e s).pending = s.pending ∧ (eraseTimedOut e s).mem = s.mem
    ∧ (eraseTimedOut e s).leftover = s.leftover ∧ (eraseTimedOut e s).freeCount = s.freeCount
    ∧ (eraseTimedOut e s).log.replay = s.log.replay ∧ (eraseTimedOut e s).seq.straps = s.seq.straps := by
  unfold eraseTimedOut; (repeat' split) <;> simp

@[simp] theorem startFlashReset_keeps (s : State) :
    (startFlashReset s).pending = s.pending ∧ (startFlashReset s).mem = s.mem
    ∧ (startFlashReset s).leftover = s.leftover ∧ (startFlashReset s).freeCount = s.freeCount
    ∧ (startFlashReset s).map = s.map ∧ (startFlashReset s).session = s.session
    ∧ (startFlashReset s).commit = s.commit ∧ (startFlashReset s).check = s.check
    ∧ (startFlashReset s).reader = s.reader ∧ (startFlashReset s).log = s.log ∧ (startFlashReset s).image = s.image
    ∧ (startFlashReset s).seq = s.seq ∧ (∀ r, (startFlashReset s).port r = s.port r) := by
  and_intros <;> first | rfl | (intro r; cases r <;> rfl)

@[simp] theorem passTime_keeps (s : State) :
    (passTime s).pending = s.pending ∧ (passTime s).mem = s.mem ∧ (passTime s).leftover = s.leftover
    ∧ (passTime s).freeCount = s.freeCount ∧ (passTime s).map = s.map ∧ (passTime s).commit = s.commit
    ∧ (passTime s).check = s.check ∧ (passTime s).reader = s.reader ∧ (passTime s).log = s.log
    ∧ (passTime s).image = s.image ∧ (passTime s).seq.phase = s.seq.phase ∧ (passTime s).seq.straps = s.seq.straps
    ∧ (passTime s).faults = s.faults ∧ (∀ r, (passTime s).port r = s.port r) := by
  and_intros <;> first | rfl | (intro r; cases r <;> rfl)

/-- The requests of a port, taken one after another. -/
theorem foldl_takeRequest_keeps (p : Port) (rs : List HostRequest) (s : State) :
    (rs.foldl (fun x r => takeRequest p r x) s).pending = s.pending
    ∧ (rs.foldl (fun x r => takeRequest p r x) s).mem = s.mem
    ∧ (rs.foldl (fun x r => takeRequest p r x) s).leftover = s.leftover
    ∧ (rs.foldl (fun x r => takeRequest p r x) s).freeCount = s.freeCount
    ∧ (rs.foldl (fun x r => takeRequest p r x) s).map.epoch = s.map.epoch
    ∧ (rs.foldl (fun x r => takeRequest p r x) s).map.switch = s.map.switch
    ∧ (rs.foldl (fun x r => takeRequest p r x) s).commit = s.commit
    ∧ (rs.foldl (fun x r => takeRequest p r x) s).check = s.check
    ∧ (rs.foldl (fun x r => takeRequest p r x) s).reader = s.reader
    ∧ (rs.foldl (fun x r => takeRequest p r x) s).log.lock = s.log.lock
    ∧ (rs.foldl (fun x r => takeRequest p r x) s).log.replay = s.log.replay
    ∧ (rs.foldl (fun x r => takeRequest p r x) s).log.initStep = s.log.initStep
    ∧ (rs.foldl (fun x r => takeRequest p r x) s).image.serial = s.image.serial
    ∧ (rs.foldl (fun x r => takeRequest p r x) s).image.imageOk = s.image.imageOk
    ∧ (rs.foldl (fun x r => takeRequest p r x) s).seq = s.seq
    ∧ (rs.foldl (fun x r => takeRequest p r x) s).faults = s.faults := by
  induction rs generalizing s with
  | nil => simp
  | cons r rs ih => simp [ih]

@[simp] theorem takeHeld_keeps (p : Port) (clocks : Nat) (s : State) :
    (takeHeld p clocks s).pending = s.pending ∧ (takeHeld p clocks s).mem = s.mem ∧ (takeHeld p clocks s).leftover = s.leftover
    ∧ (takeHeld p clocks s).freeCount = s.freeCount ∧ (takeHeld p clocks s).map.epoch = s.map.epoch
    ∧ (takeHeld p clocks s).map.switch = s.map.switch ∧ (takeHeld p clocks s).commit = s.commit
    ∧ (takeHeld p clocks s).check = s.check ∧ (takeHeld p clocks s).reader = s.reader ∧ (takeHeld p clocks s).log.lock = s.log.lock
    ∧ (takeHeld p clocks s).log.replay = s.log.replay ∧ (takeHeld p clocks s).log.initStep = s.log.initStep
    ∧ (takeHeld p clocks s).image.serial = s.image.serial ∧ (takeHeld p clocks s).image.imageOk = s.image.imageOk
    ∧ (takeHeld p clocks s).seq = s.seq ∧ (takeHeld p clocks s).faults = s.faults := by
  simp [takeHeld, foldl_takeRequest_keeps]

@[simp] theorem hostChunkDone_keeps (p : Port) (clocks : Nat) (bytes : List Byte) (s : State) :
    (hostChunkDone p clocks bytes s).pending = s.pending ∧ (hostChunkDone p clocks bytes s).mem = s.mem
    ∧ (hostChunkDone p clocks bytes s).leftover = s.leftover ∧ (hostChunkDone p clocks bytes s).freeCount = s.freeCount
    ∧ (hostChunkDone p clocks bytes s).map.epoch = s.map.epoch ∧ (hostChunkDone p clocks bytes s).map.switch = s.map.switch
    ∧ (hostChunkDone p clocks bytes s).commit = s.commit ∧ (hostChunkDone p clocks bytes s).check = s.check
    ∧ (hostChunkDone p clocks bytes s).reader = s.reader ∧ (hostChunkDone p clocks bytes s).log.lock = s.log.lock
    ∧ (hostChunkDone p clocks bytes s).log.replay = s.log.replay ∧ (hostChunkDone p clocks bytes s).log.initStep = s.log.initStep
    ∧ (hostChunkDone p clocks bytes s).image.serial = s.image.serial
    ∧ (hostChunkDone p clocks bytes s).image.imageOk = s.image.imageOk
    ∧ (hostChunkDone p clocks bytes s).seq = s.seq ∧ (hostChunkDone p clocks bytes s).faults = s.faults := by
  unfold hostChunkDone; (repeat' split) <;> simp

end Sys2Proof.Machine
end

