-- ==== Sys2Proof/Laws/Memory.lean ====
section
/-!
SUPPORT. The flash contents: reading after a write, and every memory operation keeps the canonical form.
-/

namespace Sys2Proof.Machine

/-! ### The canonical form -/

theorem memRises_mono {l k : Nat} (h : l ≤ k) : ∀ {m : List Host.Cell}, memRises k m = true → memRises l m = true
  | [], _ => rfl
  | c :: t, hm => by
    simp only [memRises, Bool.and_eq_true, decide_eq_true_eq] at hm ⊢
    exact ⟨⟨Nat.le_trans h hm.1.1, hm.1.2⟩, hm.2⟩

/-- In the canonical form an address below the first one reads as erased. -/
theorem memRead_below : ∀ {m : List Host.Cell} {k a : Nat}, memRises k m = true → a < k → memRead m a = Config.erasedByte
  | [], _, _, _, _ => rfl
  | c :: t, k, a, hm, ha => by
    simp only [memRises, Bool.and_eq_true, decide_eq_true_eq] at hm
    have h1 : c.1 ≠ a := by omega
    simp only [memRead, if_neg h1]
    exact memRead_below hm.2 (by omega)

theorem memWrite_rises : ∀ {m : List Host.Cell} {k a : Nat} {b : Byte},
    memRises k m = true → k ≤ a → memRises k (memWrite m a b) = true
  | [], k, a, b, _, hk => by
    by_cases hb : b = Config.erasedByte
    · simp [memWrite, hb, memRises]
    · simp [memWrite, hb, memRises, hk]
  | c :: t, k, a, b, hm, hk => by
    have hm' := hm
    simp only [memRises, Bool.and_eq_true, decide_eq_true_eq] at hm
    unfold memWrite
    by_cases h1 : c.1 < a
    · simp only [if_pos h1, memRises, Bool.and_eq_true, decide_eq_true_eq]
      exact ⟨hm.1, memWrite_rises hm.2 h1⟩
    · by_cases h2 : c.1 = a
      · by_cases hb : b = Config.erasedByte
        · simp only [if_neg h1, if_pos h2, if_pos hb]
          exact memRises_mono (by omega) hm.2
        · simp only [if_neg h1, if_pos h2, if_neg hb, memRises, Bool.and_eq_true, decide_eq_true_eq]
          exact ⟨⟨hk, hb⟩, h2 ▸ hm.2⟩
      · by_cases hb : b = Config.erasedByte
        · simp only [if_neg h1, if_neg h2, if_pos hb]
          exact hm'
        · simp only [if_neg h1, if_neg h2, if_neg hb, memRises, Bool.and_eq_true, decide_eq_true_eq]
          exact ⟨⟨hk, hb⟩, ⟨by omega, hm.1.2⟩, hm.2⟩

theorem memWrite_wf {m : List Host.Cell} (a : Nat) (b : Byte) (h : Memory.wf m = true) : Memory.wf (memWrite m a b) = true :=
  memWrite_rises h (Nat.zero_le a)

theorem memProgramFrom_wf (left : Remains) : ∀ (data : List Byte) (i : Nat) {m : List Host.Cell} (a : Nat),
    Memory.wf m = true → Memory.wf (memProgramFrom left i data m a) = true
  | [], _, _, _, h => h
  | _ :: ds, i, _, a, h => memProgramFrom_wf left ds (i + 1) a (memWrite_wf _ _ h)

theorem memProgram_wf {m : List Host.Cell} (a : Nat) (data : List Byte) (left : Remains) (h : Memory.wf m = true) :
    Memory.wf (memProgram m a data left) = true :=
  memProgramFrom_wf left data 0 a h

theorem memClear_rises (a n : Nat) : ∀ {m : List Host.Cell} {k : Nat}, memRises k m = true → memRises k (memClear m a n) = true
  | [], _, _ => rfl
  | c :: t, k, hm => by
    simp only [memRises, Bool.and_eq_true, decide_eq_true_eq] at hm
    unfold memClear
    by_cases h : c.1 < a ∨ a + n ≤ c.1
    · simp only [List.filter_cons, decide_eq_true h, if_true, memRises, Bool.and_eq_true, decide_eq_true_eq]
      exact ⟨hm.1, memClear_rises a n hm.2⟩
    · rw [List.filter_cons, if_neg (by simpa using h)]
      exact memRises_mono (by omega) (memClear_rises a n hm.2)

theorem memClear_wf {m : List Host.Cell} (a n : Nat) (h : Memory.wf m = true) : Memory.wf (memClear m a n) = true :=
  memClear_rises a n h

theorem memPutLeft_wf (a n : Nat) : ∀ (left : Remains) {m : List Host.Cell},
    Memory.wf m = true → Memory.wf (memPutLeft a n left m) = true
  | [], _, h => h
  | c :: t, m, h => by
    unfold memPutLeft
    apply memPutLeft_wf a n t
    split
    · exact memWrite_wf _ _ h
    · exact h

theorem memErase_wf {m : List Host.Cell} (a n : Nat) (left : Remains) (h : Memory.wf m = true) :
    Memory.wf (memErase m a n left) = true :=
  memPutLeft_wf a n left (memClear_wf a n h)

theorem memLeftover_wf {m : List Host.Cell} (o : Leftover) (left : Remains) (h : Memory.wf m = true) :
    Memory.wf (memLeftover m o left) = true := by
  cases o with
  | program a data => exact memProgram_wf a data left h
  | erase a n => exact memErase_wf a n left h

theorem reset_mem_wf : Memory.wf State.reset.mem = true := rfl

/-! ### Reading after a write -/

theorem memRead_memWrite_rises : ∀ {m : List Host.Cell} {k a : Nat} (b : Byte) (x : Nat),
    memRises k m = true → memRead (memWrite m a b) x = if x = a then b else memRead m x
  | [], k, a, b, x, _ => by
    unfold memWrite
    by_cases hb : b = Config.erasedByte <;> by_cases hx : x = a <;> simp [memRead, hb, hx]
    exact fun h => absurd h.symm hx
  | c :: t, k, a, b, x, hm => by
    simp only [memRises, Bool.and_eq_true, decide_eq_true_eq] at hm
    unfold memWrite
    by_cases h1 : c.1 < a
    · by_cases hc : c.1 = x
      · have : x ≠ a := by omega
        rw [if_pos h1, if_neg this]
        simp [memRead, hc]
      · simp only [if_pos h1, memRead, if_neg hc]
        exact memRead_memWrite_rises b x hm.2
    · by_cases h2 : c.1 = a
      · by_cases hx : x = a
        · subst hx
          by_cases hb : b = Config.erasedByte
          · simp only [if_neg h1, if_pos h2, if_pos hb, if_true]
            rw [memRead_below hm.2 (by omega), hb]
          · simp [h2, hb, memRead]
        · have hcx : c.1 ≠ x := by omega
          by_cases hb : b = Config.erasedByte
          · simp only [if_neg h1, if_pos h2, if_pos hb, if_neg hx, memRead, if_neg hcx]
          · have : a ≠ x := fun h => hx h.symm
            simp only [if_neg h1, if_pos h2, if_neg hb, if_neg hx, memRead, if_neg hcx, if_neg this]
      · by_cases hx : x = a
        · subst hx
          by_cases hb : b = Config.erasedByte
          · simp only [if_neg h1, if_neg h2, if_pos hb, if_true, memRead]
            rw [memRead_below hm.2 (by omega), hb]
          · simp [h1, h2, hb, memRead]
        · have : a ≠ x := fun h => hx h.symm
          by_cases hb : b = Config.erasedByte
          · simp only [if_neg h1, if_neg h2, if_pos hb, if_neg hx]
          · simp only [if_neg h1, if_neg h2, if_neg hb, if_neg hx, memRead, if_neg this]

/-- Reading after a write: the written byte at its address, every other address as before. -/
theorem memRead_memWrite {m : List Host.Cell} (h : Memory.wf m = true) (a : Nat) (b : Byte) (x : Nat) :
    memRead (memWrite m a b) x = if x = a then b else memRead m x :=
  memRead_memWrite_rises b x h

/-- A cleared range reads as erased, every other address as before. -/
theorem memRead_memClear (a n x : Nat) : ∀ (m : List Host.Cell),
    memRead (memClear m a n) x = if a ≤ x ∧ x < a + n then Config.erasedByte else memRead m x
  | [] => by simp [memClear, memRead]
  | c :: t => by
    have ih := memRead_memClear a n x t
    unfold memClear at ih ⊢
    by_cases h : c.1 < a ∨ a + n ≤ c.1
    · rw [List.filter_cons, if_pos (by simpa using h)]
      by_cases hc : c.1 = x
      · have : ¬(a ≤ x ∧ x < a + n) := by omega
        simp [memRead, hc, this]
      · simp only [memRead, if_neg hc]
        exact ih
    · rw [List.filter_cons, if_neg (by simpa using h), ih]
      by_cases hc : c.1 = x
      · have : a ≤ x ∧ x < a + n := by omega
        simp [this]
      · simp [memRead, hc]

end Sys2Proof.Machine
end

