-- ==== Sys2Proof/Laws/Ops.lean ====
section
/-!
SUPPORT. What single shared operations compute: outcome segments, map entries by segment number, the arbiter's choice, the
Check Unit over a list of bytes, and the ways a request arrives at a port. Each lemma is cited in place of unfolding.
-/

namespace Sys2Proof.Machine

/-! ### Addresses -/

theorem outcomeSeg_eq (a : LogicalAddr) : outcomeSeg a = BitVec.ofNat 8 (segOf a) := by
  unfold outcomeSeg segOf
  apply BitVec.eq_of_toNat_eq
  simp [BitVec.extractLsb'_toNat, Config.segmentSize, Nat.shiftRight_eq_div_pow]

theorem segOf_le (a : LogicalAddr) : segOf a ≤ 255 := by
  have := a.isLt
  simp only [segOf, Config.segmentSize]
  omega

/-! ### Map entries -/

theorem set_entryOf (es : List MapEntry) (seg : Nat) : es.set seg (entryOf es seg) = es := by
  by_cases h : seg < es.length
  · simp [entryOf, h]
  · simp [List.set_eq_of_length_le (by omega : es.length ≤ seg)]

theorem mapEntriesFrom_length (f : Nat → MapEntry → MapEntry) :
    ∀ (es : List MapEntry) (k : Nat), (mapEntriesFrom k f es).length = es.length
  | [], _ => rfl
  | _ :: t, k => by simp [mapEntriesFrom, mapEntriesFrom_length f t (k + 1)]

theorem entryOf_mapEntriesFrom (f : Nat → MapEntry → MapEntry) : ∀ (es : List MapEntry) (k seg : Nat), seg < es.length →
    entryOf (mapEntriesFrom k f es) seg = f (k + seg) (entryOf es seg)
  | [], _, _, h => by simp at h
  | _ :: _, _, 0, _ => by simp [mapEntriesFrom, entryOf]
  | _ :: t, k, seg + 1, h => by
    have ih := entryOf_mapEntriesFrom f t (k + 1) seg (by simpa using h)
    simp only [entryOf] at ih
    simp only [mapEntriesFrom, entryOf, List.getD_cons_succ, ih]
    congr 1
    omega

theorem abandoned_eq (e : MapEntry) :
    e.abandoned =
      if e.phase = .stable ∨ e.phase = .opening then e
      else { bank := e.bank, phase := .stable, fresh := 0, damaged := false, toOpen := 0 } := by
  obtain ⟨_, phase, _, _, _⟩ := e
  cases phase <;> rfl

theorem lowestDamaged_none : ∀ (es : List MapEntry) (k : Nat), (∀ e ∈ es, e.damaged = false) → lowestDamaged k es = none
  | [], _, _ => rfl
  | e :: t, k, h => by simp [lowestDamaged, h e (by simp), lowestDamaged_none t (k + 1) (fun x hx => h x (by simp [hx]))]

/-! ### The arbiter -/

/-- R133: a client with nothing pending, or with an access that is not admitted, is passed over. -/
theorem admitted_none (f : FlashPort) (d : Client) (h : ∀ x, f.slot d = .pending x → f.admits x = false) :
    f.admitted d = none := by
  unfold FlashPort.admitted
  cases hd : f.slot d with
  | pending a => simp [h a hd]
  | granted a => rfl
  | empty => rfl

/-- R133: the first access that is admitted is chosen. -/
theorem choice_first (f : FlashPort) (passed after : List Client) (c : Client) (a : Access)
    (hr : rotation f.pointer = passed ++ c :: after) (hc : f.slot c = .pending a) (ha : f.admits a = true)
    (hp : ∀ d ∈ passed, ∀ x, f.slot d = .pending x → f.admits x = false) : f.choice = some (c, a) := by
  have hn : passed.findSome? f.admitted = none := List.findSome?_eq_none_iff.2 fun d hd => admitted_none f d (hp d hd)
  simp [FlashPort.choice, hr, List.findSome?_append, hn, FlashPort.admitted, hc, ha]

theorem choice_none (f : FlashPort) (h : ∀ c a, f.slot c = .pending a → f.admits a = false) : f.choice = none :=
  List.findSome?_eq_none_iff.2 fun d _ => admitted_none f d (h d)

/-- R133: what the arbiter chooses is pending and admitted. -/
theorem choice_some {f : FlashPort} {c : Client} {a : Access} (h : f.choice = some (c, a)) :
    f.slot c = .pending a ∧ f.admits a = true := by
  obtain ⟨d, _, hx⟩ := List.exists_of_findSome?_eq_some h
  unfold FlashPort.admitted at hx
  split at hx
  · split at hx
    · cases hx
      exact ⟨‹_›, ‹_›⟩
    · cases hx
  · cases hx
  · cases hx

theorem readPending_false (f : FlashPort) (h : ∀ c a, f.slot c = .pending a → a.isRead = false) : f.readPending = false := by
  have h0 := h .hp0
  have h1 := h .hp1
  have h2 := h .log
  have h3 := h .work
  simp only [FlashPort.slot] at h0 h1 h2 h3
  unfold FlashPort.readPending
  cases e0 : f.slotHp0 <;> cases e1 : f.slotHp1 <;> cases e2 : f.slotLog <;> cases e3 : f.slotWork <;>
    simp_all [Slot.pendingRead]

theorem readPending_true (f : FlashPort) (c : Client) (x n : Nat) (h : f.slot c = .pending (.read x n)) :
    f.readPending = true := by
  cases c <;> simp only [FlashPort.slot] at h <;> simp [FlashPort.readPending, h, Slot.pendingRead, Access.isRead]

/-! ### The Check Unit -/

/-- R50: the count rises by the number of bytes taken, and the length of the range stays. -/
theorem foldl_take_count : ∀ (bs : List Byte) (c : CheckUnit),
    (bs.foldl CheckUnit.take c).count = c.count + bs.length ∧ (bs.foldl CheckUnit.take c).length = c.length
  | [], c => by simp
  | b :: t, c => by
    have ih := foldl_take_count t (c.take b)
    have hc : (c.take b).count = c.count + 1 ∧ (c.take b).length = c.length := ⟨rfl, rfl⟩
    simp only [List.foldl_cons, ih.1, ih.2, hc.1, hc.2, List.length_cons]
    exact ⟨by omega, trivial⟩

@[simp] theorem memReadBytes_length (m : List Host.Cell) (a n : Nat) : (memReadBytes m a n).length = n := by
  simp [memReadBytes]

theorem firstUsed_none (k : Nat) : ∀ (us : List Word32) (j : Nat), (∀ i, k < j + i → us.getD i 0 = 0) →
    firstUsed (k + 1) j us = none
  | [], _, _ => rfl
  | u :: t, j, h => by
    unfold firstUsed
    by_cases hk : k + 1 ≤ j ∧ u ≠ 0
    · exact absurd (by simpa using h 0 (by omega)) hk.2
    · rw [if_neg hk]
      exact firstUsed_none k t (j + 1) fun i hi => by simpa using h (i + 1) (by omega)

/-! ### Requests that arrive -/

theorem exec_requestCommand (p : Port) (r : HostRequest) (s : State) :
    exec (requestCommand p r) s = .next (arrive p r s) := by cases r <;> rfl

theorem arrive_busy (p : Port) (r : HostRequest) (s : State)
    (h : (s.port p).state = .opBusy ∨ (s.port p).state = .commitBusy) : arrive p r s = takeBusy p r s := by
  rcases h with h | h <;> simp only [arrive, takeRequest, h]

theorem arrive_ready (p : Port) (r : HostRequest) (s : State) (h : (s.port p).state = .ready) :
    arrive p r s = takeReady p r s := by simp only [arrive, takeRequest, h]

theorem arrive_held (p : Port) (r : HostRequest) (s : State) (h : (s.port p).state = .held) :
    arrive p r s = holdRequest p [] r s := by simp only [arrive, h]

/-- R137, R140: with a READ pending an erase that is RUNNING, with budget left, has a suspend issued, and nothing else of the
Flash Port changes. -/
theorem FlashPort.settle_of_readPending {f : FlashPort} (h : f.readPending = true) :
    f.settle =
      { f with
        erase :=
          f.erase.map (fun e =>
            if e.condition = .running ∧ e.suspends < Config.suspendBudget then { e with condition := .suspending } else e) } := by
  obtain ⟨a, b, c, d, pointer, transfer, erase, resetting⟩ := f
  cases erase with
  | none => rfl
  | some e =>
    obtain ⟨client, kind, addr, runTime, suspends, condition⟩ := e
    cases condition <;> by_cases hs : suspends < Config.suspendBudget <;> simp [FlashPort.settle, h, hs]

/-- R134: with no READ of the port in flight no byte arrives. -/
theorem arrivingBytes_of_no_read {p : Port} {t : HostTransfer} {k : Nat} {s : State}
    (h : s.flash.readInFlight (portClient p) = none) : arrivingBytes p t k s = [] := by
  simp [arrivingBytes, h]

/-- R134: the bytes of a READ arrive in increasing address order, and its last byte not before the READ completes. -/
theorem arrivingBytes_of_read {p : Port} {t : HostTransfer} {k : Nat} {s : State} {a n : Nat}
    (h : s.flash.readInFlight (portClient p) = some (a, n)) :
    arrivingBytes p t k s = ((readFlash s a n).drop t.arrived).take (min k (n - 1 - t.arrived)) := by
  simp [arrivingBytes, h]

/-- R150: what `clockBytes` does to the port of a transfer that its host still reads. -/
theorem clockBytes_eq {p : Port} {x : Clocking} {s : State} {t : HostTransfer} (ht : (s.port p).transfer = some t)
    (he : t.ended = false) :
    let held := t.buffer ++ arrivingBytes p t x.arrived s
    clockBytes p x s =
      s.setPort p
        { s.port p with
          dataOut := clockedOut held x.clocks
          transfer :=
            some
              { t with
                next := t.next + BitVec.ofNat 24 (min x.clocks held.length)
                buffer := held.drop x.clocks
                arrived := t.arrived + (arrivingBytes p t x.arrived s).length } } := by
  simp [clockBytes, takeArriving, deliver, updatePort, ht, he]

theorem arrive_ended (p : Port) (r : HostRequest) (s : State) (t : HostTransfer) (h : (s.port p).state = .transfer)
    (ht : (s.port p).transfer = some t) (he : t.ended = true) :
    arrive p r s = holdRequest p ((s.port p).held.filter keptAtTransferEnd) r s := by
  simp only [arrive, h, ht, he, if_true]

/-- R149: a program that passes every port-level check reaches the Session Controller. -/
theorem takeWrite_passes (p : Port) (a : LogicalAddr) (n : Nat) (f : InFlight) (decideIt : State → State) (s : State)
    (hw : (s.port p).wel = true) (hs : segOf a < 255) (hn : a.toNat % 256 + n ≤ 256)
    (hu : updEnabled s.seq.straps.updSel p = true) :
    takeWrite p a n f decideIt s = decideIt (passOn p f (updatePort p (fun q => { q with wel := false }) s)) := by
  have h1 : ¬ Config.mappedSegments ≤ segOf a := by simp only [Config.mappedSegments]; omega
  have h2 : ¬ Config.pageSize < a.toNat % Config.pageSize + n := by simp only [Config.pageSize]; omega
  simp only [takeWrite, portCheck, hw, h1, h2, hu, if_false, reduceCtorEq]

/-- What the completion of a READ and the look after it keep, and what its client does keeps, both orders keep. -/
theorem finishReadThen_keeps (P : State → Prop) {nextFirst : Bool} {c : Client} {a n : Nat} {f : State → State} {s : State}
    (hend : P (endRead c a n s)) (hlook : ∀ x, P x → P (lookAfterRead x)) (hf : ∀ x, P x → P (f x)) :
    P (finishReadThen nextFirst c a n f s) := by
  unfold finishReadThen finishRead
  split
  · exact hlook _ (hf _ hend)
  · exact hf _ (hlook _ hend)

end Sys2Proof.Machine
end

