-- ==== Sys2Proof/Tests/Slice0.lean ====
section
/-!
SUPPORT. Tests of the model: ill-formed commands, the check values and request bytes the spec prints, and single commands
whose results come from the spec's tables and worked sequences; then, for each statement with hypotheses, a witness that
states and operands meet them, in each of its clauses.
-/

namespace Sys2Proof.Tests

open Sys2Proof.Machine

-- One test is evaluated after another: the threads of tests that all wait at once for the laws would fill the memory.
set_option Elab.async false

/-! ### Ill-formed commands -/

/-- R171: a code of Table 12.9 is no unknown code. -/
theorem test_unknown_code_is_not_listed : Instr.wellFormed (.unknownCode .hp0 0x31 0) = false := by decide

/-- R144: a request whose address is complete is not incomplete. -/
theorem test_complete_request_is_not_incomplete : Instr.wellFormed (.incompleteRequest .hp0 [0x54, 0, 0, 0]) = false := by
  decide

/-- R144: a code without an address is complete. -/
theorem test_lone_code_is_complete : Instr.wellFormed (.incompleteRequest .hp1 [0x16]) = false := by decide

/-- What is left is listed once for each offset. -/
theorem test_remains_list_an_offset_once :
    Instr.wellFormed (.copyProgramComplete (.failed [(3, 0x12), (3, 0x34)])) = false := by decide

/-- What is left lies inside a block. -/
theorem test_remains_lie_in_a_block :
    Instr.wellFormed (.operationTimeout [(0xFFFF, 0), (0x10000, 0)]) = false := by decide

/-- The start-up flash reset takes remains of the same form. -/
theorem test_remains_rise : Instr.wellFormed (.startUpFlashResetComplete [(5, 0), (4, 0)]) = false := by decide

/-! ### Formats -/

/-- R46: the CRC-32 of "123456789" is 0xCBF43926. -/
theorem test_crc_of_nine_digits : crc32 [0x31, 0x32, 0x33, 0x34, 0x35, 0x36, 0x37, 0x38, 0x39] = 0xCBF43926 := by
  decide +kernel

/-- R46: the CRC-32 of no byte is 0, and of one zero byte 0xD202EF8D. -/
theorem test_crc_of_short_ranges : crc32 [] = 0 ∧ crc32 [0x00] = 0xD202EF8D := by decide +kernel

/-- R171, Table 12.9: an ARRAY READ and a PAGE PROGRAM, address bytes most significant first. -/
theorem test_request_bytes_decode :
    decodeRequest .hp0 [0x31, 0x12, 0x34, 0x56] 7 = .arrayRead .hp0 0x123456 7 ∧
    decodeRequest .hp1 [0x42, 0x00, 0x0F, 0xF0, 0x0F, 0x1E, 0xC3, 0xA5] 0 =
      .pageProgram .hp1 0x000FF0 [0x0F, 0x1E, 0xC3, 0xA5] := by decide

/-- Table 12.9: the codes with an address that is not complete, and without one. -/
theorem test_codes_decode :
    decodeRequest .hp0 [0x5D, 0x12] 0 = .incompleteRequest .hp0 [0x5D, 0x12] ∧
    decodeRequest .hp0 [0x54, 0xFE, 0xFF, 0xFF] 0 = .sectorErase .hp0 0xFEFFFF ∧
    decodeRequest .hp0 [0x16] 0 = .writeEnable .hp0 ∧ decodeRequest .hp0 [0xF0] 0 = .softReset .hp0 ∧
    decodeRequest .hp0 [0x9F] 3 = .unknownCode .hp0 0x9F 3 := by decide

/-- Table 12.2: an area header begins with the bytes "ULOG" and its generation. -/
theorem test_area_header_begins_with_ulog :
    (areaHeaderBytes 1).take 8 = [0x55, 0x4C, 0x4F, 0x47, 0x01, 0x00, 0x00, 0x00] := by decide +kernel

/-- Tables 12.3, 12.4: a TRIAL record: sequence number, kind 0x04, count, zeros. -/
theorem test_trial_record_bytes : (recordBytes 0x01020304 (.trial 2)).take 7 = [4, 3, 2, 1, 0x04, 0x02, 0x00] := by
  decide +kernel

set_option maxRecDepth 20000 in
/-- R79: a position with one byte of its record changed is torn. -/
theorem test_changed_record_is_torn : tornRecord ((recordBytes 7 .opened).set 60 0x80) = true := by decide +kernel

/-! ### Single commands -/

/-- A state in service: segment map all A, image VIRGIN, straps that enable both ports with a trial limit of 1. -/
def served : State :=
  { State.reset with
    seq :=
      { Sequencer.reset with
        inReset := false, phase := .serving, straps := { updSel := .both, chkEn := false, trialLim := 1, idleLim := .s10 } }
    log := { LogUnit.reset with area := some .zero, generation := some 1, position := 2, nextSeq := 2 }
    hp0 := { HostPort.reset with state := .ready, wel := true }
    hp1 := { HostPort.reset with state := .ready, wel := true } }

/-- The state after a command, or the state before it where the command gives none. -/
def after (s : State) (c : Instr) : State :=
  match exec c s with
  | .next t => t
  | _ => s

/-- R114: nothing but the end of the part reset is effective from reset. -/
theorem test_flash_ready_waits_for_the_reset_to_end : after State.reset .flashReady = State.reset := by decide +kernel

/-- Table 12.10: UPD_SEL 10 enables HP1, TRIAL_LIM 11 is 3, an open pin counts as 0. -/
theorem test_straps_latch :
    (after State.reset (.partResetEnd
      { updSel1 := .high, updSel0 := .low, chkEn := .high, trialLim1 := .high, trialLim0 := .high, idleLim1 := .unconnected,
        idleLim0 := .high })).seq.straps = { updSel := .hp1, chkEn := true, trialLim := 3, idleLim := .s60 } := by
  decide +kernel

/-- 11, first update: the first erase takes the lock, starts the timer paused and asks for an OPEN record. -/
theorem test_first_erase_starts_a_session :
    (after served (.segmentErase .hp0 0x010000)).session.lock = .session ∧
    (after served (.segmentErase .hp0 0x010000)).log.queue = [.opened] ∧
    (after served (.segmentErase .hp0 0x010000)).hp0.state = .opBusy := by decide +kernel

/-- R149: segment 255 is out of range, whatever the straps say. -/
theorem test_erase_of_segment_255_is_out_of_range :
    (after served (.sectorErase .hp1 0xFF0000)).hp1.code = .outOfRange ∧
    (after served (.sectorErase .hp1 0xFF0000)).hp1.seg = 0xFF := by decide +kernel

/-- R149: 17 bytes from offset 0xF0 cross the page, 16 do not. -/
theorem test_page_cross :
    (after served (.pageProgram .hp0 0x0000F0 (List.replicate 17 0))).hp0.code = .pageCross ∧
    (after served (.pageProgram .hp0 0x0000F0 (List.replicate 16 0))).hp0.code = .noSession := by decide +kernel

/-- R158: the fifth byte of an IDENT READ is 0xFF. -/
theorem test_ident_read : (after served (.identRead .hp0 5)).hp0.dataOut = [0xDA, 0x31, 0x18, 0x01, 0xFF] := by
  decide +kernel

/-- R156: SR1 with WEL alone is 0x02. -/
theorem test_status_read : (after served (.statusRead .hp1 1)).hp1.dataOut = [0x02] := by decide +kernel

/-- R102: an ACCEPT of an image that is not on trial is refused NOT_ON_TRIAL. -/
theorem test_accept_needs_a_trial : (after served (.accept .hp0)).hp0.code = .notOnTrial := by decide +kernel

/-- R104: a REVERT without a target is refused NO_TARGET. -/
theorem test_revert_needs_a_target : (after served (.revert .hp0)).hp0.code = .noTarget := by decide +kernel

/-- R9: the first chunk of a read at 0xFEFFFF, one byte up to the end of the page, comes from bank A. -/
theorem test_read_at_the_top_of_the_map :
    (after served (.arrayRead .hp0 0xFEFFFF 0)).flash.slotHp0 = .pending (.read 0xFEFFFF 1) := by decide +kernel

/-- R132: a read of segment 255 returns 0xFF without an access. -/
theorem test_read_of_segment_255 :
    (after served (.arrayRead .hp1 0xFF0080 3)).hp1.dataOut = [0xFF, 0xFF, 0xFF] ∧
    (after served (.arrayRead .hp1 0xFF0080 3)).flash.slotHp1 = .empty := by decide +kernel

/-- R13: a switch without an entry to flip still raises the epoch. -/
theorem test_switch_raises_the_epoch :
    (after { served with map := { served.map with switch := some { requester := .imageState, flip := 0, endsEpoch := 0 } } }
      .switchTakesEffect).map.epoch = 1 := by decide +kernel

/-- R17: a rollback switch of segment 254 moves that segment alone. -/
theorem test_switch_flips_segment_254 :
    let t := after
      { served with map := { served.map with switch := some { requester := .imageState, flip := 1#256 <<< 254, endsEpoch := 0 } } }
      .switchTakesEffect
    (t.entry 254).bank = .b ∧ (t.entry 253).bank = .a := by decide +kernel

/-! ### Witnesses: steps and formats -/

/-- A state in service in which HP0 owns an ACTIVE session whose OPEN record is logged, with segment 254 OPEN, its sector 15
fresh, and WEL set on both ports. -/
def owned : State :=
  State.setEntry
    { served with
      session :=
        { lock := .session, state := .active, owner := some .hp0, openCount := 1, openLogged := true, timer := .stopped,
          endReason := none } }
    254 { bank := .a, phase := .opened, fresh := 0x8000, damaged := false, toOpen := 0 }

/-- `owned` with HP0 waiting for a request. -/
def waiting (f : InFlight) : State :=
  { owned with hp0 := { owned.hp0 with state := .opBusy, wel := false, inFlight := some f } }

/-- A state with a transfer of a client in flight. -/
def withTransfer (c : Client) (a : Access) (run : Nat) (s : State) : State :=
  { s with flash := { s.flash.setSlot c (.granted a) with transfer := some { client := c, access := a, runTime := run } } }

/-- A state with a block erase of a client in progress. -/
def withErase (c : Client) (kind : EraseKind) (addr run : Nat) (cond : EraseCondition) (s : State) : State :=
  let e : FlashErase := { client := c, kind := kind, addr := addr, runTime := run, suspends := 0, condition := cond }
  { s with flash := { s.flash.setSlot c (.granted e.access) with erase := some e } }

/-- A state with a start-up phase entered. -/
def atStart (phase : StartPhase) (work : PhaseWork) : State :=
  { State.reset with seq := { Sequencer.reset with inReset := false, phase := phase, work := work } }

theorem witness_StepTakesTheFrontCommand :
    ∃ s : State, s.pending = Instr.appendWrite :: [Instr.check] := ⟨{ served with pending := [.appendWrite, .check] }, rfl⟩

theorem witness_IdleStepPassesOneMs :
    (∃ s : State, s.pending = [] ∧ s.session.timer = .running 0 ∧ s.flash.transfer = none ∧
      ∃ e, s.flash.erase = some e ∧ e.condition = .running ∧ e.runTime = e.kind.limit) ∧
    (∃ s : State, s.pending = [] ∧ (∀ ms, s.session.timer ≠ .running ms) ∧
      (∃ e, s.flash.erase = some e ∧ e.condition = .suspended) ∧
      ∃ x, s.flash.transfer = some x ∧ ∀ a data, x.access ≠ .program a data) ∧
    (∃ s : State, s.pending = [] ∧ s.flash.erase = none ∧ (∀ ms, s.seq.wait ≠ .polling ms) ∧
      ∃ x a data, s.flash.transfer = some x ∧ x.access = .program a data ∧ x.runTime = 8) ∧
    (∃ s : State, s.pending = [] ∧ s.seq.wait = .polling 8000) :=
  ⟨⟨withErase .hp0 .block 0x1000000 6000 .running { owned with session := { owned.session with timer := .running 0 } },
      rfl, rfl, rfl, _, rfl, rfl, rfl⟩,
    ⟨withTransfer .hp1 (.read 0 256) 0 (withErase .hp0 .block 0x1000000 5 .suspended owned), rfl, (by intro ms h; cases h),
      ⟨_, rfl, rfl⟩, _, rfl, (by intro a data h; cases h)⟩,
    ⟨withTransfer .hp0 (.program 0x1000000 [0]) 8 owned, rfl, rfl, (by intro ms h; cases h), _, _, _, rfl, rfl, rfl⟩,
    ⟨{ State.reset with seq := { Sequencer.reset with wait := .polling 8000 } }, rfl, rfl⟩⟩

theorem witness_RequestBytesDecodeBack :
    ∃ r : HostRequest, r = .unknownCode 0x00 2 ∧ ∀ code n, r = .unknownCode code n → code ∉ commandCodes :=
  ⟨_, rfl, by intro code n h; injection h with h1 _; subst h1; decide⟩

/-- A place of replay at a position, the last record applied being number 1. -/
def walkAt (position : Nat) : ReplayWalk :=
  { area := .zero, generation := 1, position := position, last := 1, summary := LogSummary.initial, miss := none }

/-- A bitmap with bank B for segments 0, 2 and 254. -/
def sampleBitmap : Bitmap := 0x4000000000000000000000000000000000000000000000000000000000000005#256

/-- A body for each kind of record, with that bitmap. -/
def sampleBodies : List RecordBody :=
  [.base { LogSummary.initial with bitmap := sampleBitmap }, .opened, .commit sampleBitmap 7 8 2, .trial 1, .confirm 7,
    .rollback sampleBitmap 6 .startCheck]

theorem sample_bits : sampleBitmap.getLsbD 255 = false ∧ LogSummary.initial.targetBitmap.getLsbD 255 = false := by
  decide +kernel

theorem witness_WrittenPositionsReadBack :
    ∀ body ∈ sampleBodies, ∀ bm ∈ recordBitmaps body, bm.getLsbD 255 = false := by
  simp only [sampleBodies, List.forall_mem_cons, recordBitmaps, List.not_mem_nil, false_implies, implies_true, and_true,
    sample_bits]

theorem witness_ReplayAppliesWrittenRecords :
    ((walkAt 511).miss = none ∧ (walkAt 2).miss = none) ∧
    (∀ body ∈ sampleBodies, ∀ bm ∈ recordBitmaps body, bm.getLsbD 255 = false) :=
  ⟨⟨rfl, rfl⟩, witness_WrittenPositionsReadBack⟩

/-- An erased position, and one that holds zeros, which is torn. -/
def erasedPosition : List Byte := List.replicate 128 0xFF

/-- A position of zeros. -/
def tornPosition : List Byte := List.replicate 128 0x00

set_option maxRecDepth 20000 in
theorem positions_hold_no_record : validRecord erasedPosition = none ∧ validRecord tornPosition = none := by decide +kernel

theorem witness_ReplayPassesOverAndEnds :
    (∀ bs ∈ [tornPosition, erasedPosition], ∀ b, validRecord bs ≠ some ((walkAt 2).last + 1, b)) ∧
    (∀ bm ∈ recordBitmaps (.commit sampleBitmap 7 8 2), bm.getLsbD 255 = false) ∧
    (walkAt 2).miss = none ∧
    (∀ bs, ([] : List (List Byte)).getLast? = some bs → erasedBytes bs = false) ∧
    (∀ bs, [tornPosition].getLast? = some bs → erasedBytes bs = false) ∧
    (∀ bs ∈ [erasedPosition, erasedPosition], erasedBytes bs = true) := by
  refine ⟨?_, ?_, rfl, ?_, ?_, by decide +kernel⟩
  · intro bs h b
    rcases List.mem_cons.1 h with rfl | h
    · simp [positions_hold_no_record.2]
    · simp [List.mem_singleton.1 h, positions_hold_no_record.1]
  · simp only [recordBitmaps, List.forall_mem_cons, sample_bits, List.not_mem_nil, false_implies, implies_true, and_true]
  · intro bs h
    cases h
  · intro bs h
    cases h
    decide +kernel

/-- The header range of an image with serial 1 whose segments 0 and 254 are full, but for its header CRC, given here. -/
def headerRange (crc : Word32) : List Byte :=
  [0x55, 0x4C, 0x4B, 0x49, 0x01, 0x00, 0xFF, 0x00, 0x01, 0x00, 0x00, 0x00] ++ le32Bytes crc ++
    [0x00, 0xF0, 0x00, 0x00, 0x00, 0x00, 0x00, 0x00] ++ List.replicate 2024 0x00 ++
    [0x00, 0x00, 0x01, 0x00, 0x00, 0x00, 0x00, 0x00]

set_option maxRecDepth 20000 in
theorem witness_HeaderIsJudgedByItsFields :
    (headerRange 5).length = 2056 ∧
    (headerSummary (captureWords HeaderCapture.empty 0 (headerRange 5)) 5).valid = true ∧
    (headerSummary (captureWords HeaderCapture.empty 0 (headerRange 5)) 6).valid = false := by decide +kernel

theorem witness_HeaderRangeTakesItsCrcFieldAsZero :
    ((headerRange 5).take 12).length = 12 ∧ (((headerRange 5).drop 12).take 4).length = 4 ∧
    ((headerRange 5).take 12 ++ ((headerRange 5).drop 12).take 4 ++ (headerRange 5).drop 16).length = 2056 := by
  decide +kernel

theorem witness_SessionFieldFollowsTheLock :
    (∃ x : Session, x.lock = .session ∧ x.state = .closing) ∧
    (∃ x : Session, x.lock = .session ∧ x.state ≠ .closing) ∧ (∃ x : Session, x.lock = .rollback) :=
  ⟨⟨{ owned.session with state := .closing }, rfl, rfl⟩, ⟨owned.session, rfl, by decide⟩,
    ⟨{ Session.reset with lock := .rollback }, rfl⟩⟩

theorem witness_LinesFollowTheState : State.reset.seq.phase ≠ .serving ∧ served.seq.phase = .serving := by decide

theorem witness_ViewsTranslateIntoTheCopies : segOf 0x000000 < 255 ∧ segOf 0xFEFFFF = 254 := by decide

theorem witness_SwitchesGiveTheRecordedMaps : owned.map.entries.length = 255 := by decide +kernel

theorem witness_OperationsStayInTheirRange :
    Memory.wf [(0x0FF0000, 0x55), (0x1FFFFFF, 0x00)] = true ∧
    (∃ a n x : Nat, a ≤ x ∧ x < a + n ∧ x = a ∧ x + 1 = a + n) ∧
    (∃ a n x : Nat, ¬(a ≤ x ∧ x < a + n) ∧ x = a + n) :=
  ⟨by decide, ⟨7, 1, 7, by omega⟩, ⟨7, 1, 8, by omega⟩⟩

/-! ### Witnesses: invariants -/

/-- `owned` with a SECTOR ERASE of the fresh sector waiting. -/
def erasing : State := { owned with pending := [.sectorErase .hp0 0xFEF000] }

/-- In service, with nothing of the start-up at work and neither port HELD, the start-up is sound. -/
theorem served_like_is_sound {s : State} (hr : s.seq.inReset = false) (hp : s.seq.phase = .serving) (hw : s.seq.wait = .none)
    (hl : s.log.replay = none) (hi : s.log.initStep = none) (ht : s.trialsAsked = 0)
    (hc : s.reader = none ∧ s.image.rollback = none) (hh : ∀ p : Port, (s.port p).state ≠ .held) : s.startUpSound := by
  simp [State.startUpSound, State.waitSound, State.phaseWorkSound, State.holdSound, State.startReader, State.startRollback, hr,
    hp, hw, hl, hi, ht, hc.1, hc.2, hh]

theorem witness_of_the_step_invariants :
    Memory.wf erasing.mem = true ∧ erasing.map.sound = true ∧ erasing.flash.sound = true ∧ erasing.portsSound = true ∧
      erasing.startUpSound ∧ erasing.logFaultsSound = true ∧ erasing.log.sound = true ∧ erasing.commit.sound = true ∧
      ∃ t, step erasing = .next t ∧ t.flash.slotHp0 = .pending (.sectorErase 0x1FEF000) := by
  refine ⟨by decide +kernel, by decide +kernel, by decide +kernel, by decide +kernel, ?_, by decide +kernel,
    by decide +kernel, by decide +kernel, after { erasing with pending := [] } (.sectorErase .hp0 0xFEF000), rfl,
    by decide +kernel⟩
  exact served_like_is_sound rfl rfl rfl rfl rfl rfl ⟨rfl, rfl⟩ (fun p => by cases p <;> decide)

theorem witness_WritesNeverGoToAnActiveCopy :
    (∀ x n, owned.flash.readInFlight .work = some (x, n) → n ≤ 256) ∧
    (∃ t, owned.portsSound = true ∧ owned.commit.sound = true ∧ owned.log.sound = true ∧
      exec (.sectorErase .hp0 0xFEF000) owned = .next t ∧ t.flash.slot .hp0 = .pending (.sectorErase 0x1FEF000) ∧
      owned.flash.slot .hp0 ≠ .pending (.sectorErase 0x1FEF000)) ∧
    (∃ t, exec (.segmentErase .hp0 0xFE0000) owned = .next t ∧ t.flash.slot .hp0 = .pending (.blockErase 0x1FE0000)) ∧
    (∃ t, exec (.pageProgram .hp0 0xFEFFFF [0x00]) owned = .next t ∧
      t.flash.slot .hp0 = .pending (.program 0x1FEFFFF [0x00])) ∧
    (∃ s t : State, s.portsSound = true ∧ s.commit.sound = true ∧ s.log.sound = true ∧
      (∀ x n, s.flash.readInFlight .work = some (x, n) → n ≤ 256) ∧ exec .appendWrite s = .next t ∧
      t.flash.slot .log = .pending (.program 0x0FF0100 (recordBytes 2 .opened)) ∧
      s.flash.slot .log ≠ .pending (.program 0x0FF0100 (recordBytes 2 .opened))) := by
  refine ⟨(by intro x n h; cases h), ⟨after owned (.sectorErase .hp0 0xFEF000), by decide +kernel, by decide +kernel,
      by decide +kernel, rfl, by decide +kernel, by decide +kernel⟩,
    ⟨after owned (.segmentErase .hp0 0xFE0000), rfl, by decide +kernel⟩,
    ⟨after owned (.pageProgram .hp0 0xFEFFFF [0x00]), rfl, by decide +kernel⟩,
    ⟨{ owned with log := { owned.log with queue := [.opened] } }, _, by decide +kernel,
      by decide +kernel, by decide +kernel, (by intro x n h; cases h), rfl, rfl, by decide +kernel⟩⟩

/-- `served` with a rollback switch pending. -/
def switching : State :=
  { served with
    map := { served.map with switch := some { requester := .imageState, flip := 1, endsEpoch := 0 } }
    session := { served.session with lock := .rollback }
    image :=
      { served.image with
        state := .trial, targetValid := true, targetBitmap := 1, targetSerial := 4, rollback := some (.port .hp0, .requested) }
    hp0 := { served.hp0 with state := .opBusy, inFlight := some (.program 0x000FF4 [0x22, 0x0B, 0xC3, 0x5A]) } }

theorem witness_ImageChangesOnlyAtSwitches :
    (∃ t : State, exec .switchTakesEffect switching = .next t ∧ switching.seq.phase = .serving ∧
      t.map.epoch ≠ switching.map.epoch) ∧
    (∃ t : State, exec (.writeEnable .hp0) served = .next t ∧ served.log.replay = none ∧ served.log.initStep = none ∧
      t.map.epoch = served.map.epoch ∧ ∀ release, Instr.writeEnable .hp0 ≠ .serving release) := by
  refine ⟨⟨after switching .switchTakesEffect, rfl, by decide, by decide +kernel⟩,
    ⟨after served (.writeEnable .hp0), rfl, rfl, rfl, by decide +kernel, ?_⟩⟩
  intro release h
  cases h

/-- `served` with every member in the fault set, after a failed append. -/
def faulted : State :=
  { served with
    log := { served.log with lock := .faulted }
    faults := { flashTimeout := true, logFault := true, logCorrupt := true, noValidImage := true, trialExpired := true } }

theorem witness_WhatLastsUntilPartReset :
    ∃ t : State, exec (.sectorErase .hp0 0) faulted = .next t ∧ faulted.startUpSound ∧ faulted.seq.phase = .serving ∧
      faulted.log.lock ≠ .ok ∧ (∀ pins, Instr.sectorErase .hp0 0 ≠ .partResetEnd pins) ∧ faulted.faults.flashTimeout = true ∧
      faulted.faults.logFault = true ∧ faulted.faults.logCorrupt = true ∧ t.map.epoch = faulted.map.epoch ∧
      faulted.faults.noValidImage = true ∧ faulted.faults.trialExpired = true := by
  refine ⟨after faulted (.sectorErase .hp0 0), rfl,
    served_like_is_sound rfl rfl rfl rfl rfl rfl ⟨rfl, rfl⟩ (fun p => by cases p <;> decide), rfl, by decide, ?_, rfl, rfl, rfl,
    by decide +kernel, rfl, rfl⟩
  intro pins h
  cases h

theorem witness_HostRequestsLeaveTheOtherPortAlone :
    ∃ t : State, requestPort (.segmentErase .hp1 0) = some .hp1 ∧ exec (.segmentErase .hp1 0) served = .next t ∧
      t.hp1.state = .opBusy := ⟨after served (.segmentErase .hp1 0), rfl, rfl, by decide +kernel⟩

/-! ### Witnesses: start-up -/

theorem witness_FlashWaitLatchesTheStrapsAndEndsInScan :
    State.reset.seq.inReset = true ∧
    (∃ (s : State) (ms : Nat), s.seq.wait = .polling ms ∧ ms < 8000 ∧ ms + 1 = 8000) ∧
    (∃ s : State, s.seq.wait = .polling 8000) ∧
    (∃ s : State, s.seq.wait = .resetting ∧ s.leftover = none) ∧
    (∃ s : State, s.seq.wait = .resetting ∧ s.leftover = some (.erase 0x1FF0000 0x10000)) ∧
    (∃ s : State, s.seq.wait = .resetting ∧ s.leftover = some (.program 0x1FFFF00 [0x12])) :=
  ⟨rfl, ⟨{ State.reset with seq := { Sequencer.reset with wait := .polling 7999 } }, _, rfl, by decide, rfl⟩,
    ⟨{ State.reset with seq := { Sequencer.reset with wait := .polling 8000 } }, rfl⟩,
    ⟨{ State.reset with seq := { Sequencer.reset with wait := .resetting } }, rfl, rfl⟩,
    ⟨{ State.reset with
        seq := { Sequencer.reset with wait := .resetting }, leftover := some (.erase 0x1FF0000 0x10000) }, rfl, rfl⟩,
    ⟨{ State.reset with
        seq := { Sequencer.reset with wait := .resetting }, leftover := some (.program 0x1FFFF00 [0x12]) }, rfl, rfl⟩⟩

theorem witness_ScanAndInitPlaceTheirFirstAccess (phase : StartPhase) (_ : phase = .scan ∨ phase = .init) :
    (atStart phase .notBegun).seq.work = .notBegun ∧ (atStart phase .notBegun).flash.slotLog = .empty ∧
      (atStart phase .notBegun).flash.erase = none ∧ (atStart phase .notBegun).seq.phase = phase := ⟨rfl, rfl, rfl, rfl⟩

/-- A replay that has the read of a position in flight. -/
def replayAt (r : Replay) (a : Nat) : State :=
  withTransfer .log (.read a 128) 0
    { atStart .scan .running with log := { LogUnit.reset with replay := some r } }

theorem witness_ReplayReadsOnAndHandsOver :
    (∃ (s : State) (a n : Nat), s.log.replay = some (.walk (walkAt 2)) ∧ s.flash.readInFlight .log = some (a, n) ∧
      s.flash.erase = none ∧
      (walkPosition (walkAt 2) (memReadBytes s.mem a n)).position < 512) ∧
    (∃ (s : State) (a n : Nat), s.log.replay = some (.walk (walkAt 511)) ∧ s.flash.readInFlight .log = some (a, n) ∧
      s.flash.erase = none ∧
      (walkPosition (walkAt 511) (memReadBytes s.mem a n)).position = 512 ∧ s.map.entries.length = 255) ∧
    (∃ (s : State) (a n : Nat), s.log.replay = some (.heads [erasedPosition, erasedPosition, erasedPosition]) ∧
      s.flash.readInFlight .log = some (a, n) ∧ s.flash.erase = none ∧ s.log.lock = .ok ∧
      usableArea erasedPosition erasedPosition = none ∧ usableArea erasedPosition (memReadBytes s.mem a n) = none ∧
      erasedBytes (memReadBytes s.mem a n) = true) ∧
    (∃ (s : State) (a n : Nat), s.log.replay = some (.heads [erasedPosition, erasedPosition, tornPosition]) ∧
      s.flash.readInFlight .log = some (a, n) ∧ s.flash.erase = none ∧ s.log.lock = .ok ∧
      usableArea tornPosition (memReadBytes s.mem a n) = none ∧ erasedBytes tornPosition = false) := by
  refine ⟨⟨replayAt (.walk (walkAt 2)) 0x0FF0100, 0x0FF0100, 128, rfl, rfl, rfl, ?_⟩,
    ⟨replayAt (.walk (walkAt 511)) 0x0FFFF80, 0x0FFFF80, 128, rfl, rfl, rfl, ?_, by decide +kernel⟩,
    ⟨replayAt (.heads [erasedPosition, erasedPosition, erasedPosition]) 0x1FF0080, 0x1FF0080, 128, rfl, rfl, rfl, rfl, ?_, ?_,
      ?_⟩,
    ⟨replayAt (.heads [erasedPosition, erasedPosition, tornPosition]) 0x1FF0080, 0x1FF0080, 128, rfl, rfl, rfl, rfl, ?_, ?_⟩⟩
    <;> set_option maxRecDepth 20000 in decide +kernel

/-- The cells with these bytes, one after another, from an address on. -/
def listed : Nat → List Byte → List Host.Cell
  | _, [] => []
  | a, b :: bs => (a, b) :: listed (a + 1) bs

theorem memReadBytes_listed : ∀ (bs : List Byte) (a : Nat), memReadBytes (listed a bs) a bs.length = bs
  | [], _ => rfl
  | b :: bs, a => by
    have ih := memReadBytes_listed bs (a + 1)
    unfold memReadBytes at ih ⊢
    rw [List.length_cons, List.range_succ_eq_map, List.map_cons, List.map_map, listed]
    congr 1
    · simp [memRead]
    · exact Eq.trans (List.map_congr_left fun i _ => by simp [memRead, Nat.add_assoc, Nat.add_comm 1 i]) ih

/-- A BASE as initialisation writes it, with a sequence number. -/
def baseBytes (seq : Word32) : List Byte := recordBytes seq (.base LogSummary.initial)

/-- A replay with the position 1 of area 1 to be read, of two areas with a generation and the sequence number of a BASE each. -/
def areasAt (g0 n0 g1 n1 : Word32) : State :=
  { replayAt (.heads [areaHeaderBytes g0, baseBytes n0, areaHeaderBytes g1]) 0x1FF0080 with mem := listed 0x1FF0080 (baseBytes n1) }

theorem areasAt_flash (g0 n0 g1 n1 : Word32) :
    (areasAt g0 n0 g1 n1).flash.readInFlight .log = some (0x1FF0080, 128) ∧ (areasAt g0 n0 g1 n1).flash.erase = none ∧
      (areasAt g0 n0 g1 n1).log.replay = some (.heads [areaHeaderBytes g0, baseBytes n0, areaHeaderBytes g1]) :=
  ⟨rfl, rfl, rfl⟩

theorem areasAt_read (g0 n0 g1 n1 : Word32) : memReadBytes (areasAt g0 n0 g1 n1).mem 0x1FF0080 128 = baseBytes n1 :=
  memReadBytes_listed (baseBytes n1) 0x1FF0080

set_option maxRecDepth 20000 in
theorem written_headers : areaGeneration (areaHeaderBytes 1) = some 1 ∧ areaGeneration (areaHeaderBytes 2) = some 2 :=
  ⟨by decide +kernel, by decide +kernel⟩

set_option maxRecDepth 20000 in
theorem written_bases :
    validBase (baseBytes 1) = some (1, LogSummary.initial) ∧ validBase (baseBytes 5) = some (5, LogSummary.initial) ∧
      validBase (baseBytes 6) = some (6, LogSummary.initial) ∧ validBase (baseBytes 9) = some (9, LogSummary.initial) :=
  ⟨by decide +kernel, by decide +kernel, by decide +kernel, by decide +kernel⟩

/-- The replay of `areasAt` finds both areas usable. -/
def BothUsable (g0 n0 g1 n1 : Word32) : Prop :=
  usableArea (areaHeaderBytes g0) (baseBytes n0) = some (g0, n0, LogSummary.initial) ∧
    usableArea (areaHeaderBytes g1) (memReadBytes (areasAt g0 n0 g1 n1).mem 0x1FF0080 128) = some (g1, n1, LogSummary.initial)

theorem bothUsable {g0 n0 g1 n1 : Word32} (hg0 : areaGeneration (areaHeaderBytes g0) = some g0)
    (hn0 : validBase (baseBytes n0) = some (n0, LogSummary.initial)) (hg1 : areaGeneration (areaHeaderBytes g1) = some g1)
    (hn1 : validBase (baseBytes n1) = some (n1, LogSummary.initial)) : BothUsable g0 n0 g1 n1 :=
  ⟨by rw [usableArea, hg0, hn0], by rw [areasAt_read, usableArea, hg1, hn1]⟩

set_option maxRecDepth 20000 in
theorem erased_area_is_not_usable :
    usableArea erasedPosition erasedPosition = none ∧ usableArea erasedPosition (memReadBytes [] 0x1FF0080 128) = none :=
  ⟨by decide +kernel, by decide +kernel⟩

/-- Two usable areas for each way in which R91 chooses: the generation greater in area 0 or in area 1, the generations equal
with the sequence numbers equal or that of area 1 greater. -/
theorem witness_of_the_choice_of_area :
    BothUsable 2 1 1 9 ∧ BothUsable 1 9 2 1 ∧ BothUsable 1 5 1 5 ∧ BothUsable 1 5 1 6 :=
  have ⟨g1, g2⟩ := written_headers
  have ⟨b1, b5, b6, b9⟩ := written_bases
  ⟨bothUsable g2 b1 g1 b9, bothUsable g1 b9 g2 b1, bothUsable g1 b5 g1 b5, bothUsable g1 b5 g1 b6⟩

theorem witness_of_the_first_reads_of_replay :
    ∀ read ∈ [[], [erasedPosition], [erasedPosition, tornPosition]], ∃ s : State, s.log.replay = some (.heads read) ∧
      s.flash.readInFlight .log = some (0x0FF0000, 128) ∧ s.flash.erase = none :=
  fun read _ => ⟨replayAt (.heads read) 0x0FF0000, rfl, rfl, rfl⟩

/-- A trial step to be done, with a count, a limit and a target. -/
def trialAt (count limit : Fin 4) (target : Bool) : State :=
  { atStart .trialStep .notBegun with
    image := { ImageUnit.reset with state := .trial, count := count, limit := limit, targetValid := target } }

theorem witness_TrialStepCountsOrExpires :
    (∃ s : State, s.seq.phase = .trialStep ∧ s.seq.work = .notBegun ∧ s.image.state ≠ .trial) ∧
    (∃ s : State, s.seq.phase = .trialStep ∧ s.seq.work = .notBegun ∧ s.image.state = .trial ∧ s.image.count = 2 ∧
      s.image.limit = 3) ∧
    (∀ target, ∃ s : State, s.seq.phase = .trialStep ∧ s.seq.work = .notBegun ∧ s.image.state = .trial ∧ s.image.count = 3 ∧
      s.image.limit = 3 ∧ s.image.targetValid = target) :=
  ⟨⟨atStart .trialStep .notBegun, rfl, rfl, by decide⟩, ⟨trialAt 2 3 true, rfl, rfl, rfl, rfl, rfl⟩,
    fun target => ⟨trialAt 3 3 target, rfl, rfl, rfl, rfl, rfl, rfl⟩⟩

/-- The start-up check to be done. -/
def checkAt (chkEn : Bool) (state : ImageState) : State :=
  { atStart .check .notBegun with
    seq := { (atStart .check .notBegun).seq with straps := { Straps.unlatched with chkEn := chkEn } }
    image := { ImageUnit.reset with state := state } }

theorem witness_CheckBeginsWithTheHeader :
    (∀ s ∈ [checkAt false .trial, checkAt true .virgin, checkAt true .confirmed],
      s.seq.phase = .check ∧ s.seq.work = .notBegun ∧ s.flash.slotWork = .empty ∧ s.flash.erase = none) ∧
    ((checkAt false .trial).seq.straps.chkEn = false) ∧ ((checkAt true .virgin).image.state = .virgin) ∧
    ((checkAt true .confirmed).seq.straps.chkEn = true ∧ (checkAt true .confirmed).image.state ≠ .virgin) := by
  decide +kernel

theorem witness_ServingReleasesThePorts :
    ∃ s : State, s.seq.phase = .check ∧ s.seq.work = .ended ∧ s.hp0.state = .held ∧ s.hp1.state = .held ∧
      (s.port (otherPort .hp1)).held = [] ∧ (s.port .hp1).held = [.arrayRead 0 4] ∧ (s.port .hp0).held = [] :=
  ⟨{ atStart .check .ended with hp1 := { HostPort.reset with held := [.arrayRead 0 4] } }, rfl, rfl, rfl, rfl, rfl, rfl, rfl⟩

/-! ### Witnesses: reads of the hosts -/

/-- A state with the block erase of map area 1 in progress, with a suspend count. -/
def erasingArea (suspends : Nat) (condition : EraseCondition) (s : State) : State :=
  { s with
    flash :=
      { s.flash with
        slotLog := .granted (.blockErase 0x1FF0000)
        erase :=
          some { client := .log, kind := .block, addr := 0x1FF0000, runTime := 0, suspends := suspends, condition := condition } } }

/-- R137, R140: a READ of a host suspends a RUNNING erase at the suspend count 31, and no more at 32. -/
theorem test_read_suspends_up_to_32_times :
    (after (erasingArea 31 .running served) (.arrayRead .hp1 0 0)).flash.erase.map FlashErase.condition = some .suspending ∧
    (after (erasingArea 32 .running served) (.arrayRead .hp1 0 0)).flash.erase.map FlashErase.condition = some .running := by
  decide +kernel

theorem witness_of_reads_during_an_erase :
    ∀ k ∈ [31, 32], ((erasingArea k .running owned).port .hp0).state = .ready ∧ (erasingArea k .running owned).map.switch = none ∧
      (erasingArea k .running owned).flash.slot .hp0 = .empty ∧
      (erasingArea k .running owned).flash.erase.map FlashErase.condition = some .running ∧
      (erasingArea k .running owned).flash.erase.map FlashErase.suspends = some k ∧
      (erasingArea k .running owned).flash.readInFlight .hp0 = none := by decide +kernel

theorem witness_ArrayReadFormsItsFirstChunk :
    (owned.port .hp0).state = .ready ∧ owned.map.switch = none ∧ segOf 0xFEFFFF < 255 ∧ segOf 0xFF0000 = 255 ∧
      owned.flash.slot .hp0 = .empty ∧ owned.flash.erase = none ∧ (switching.port .hp1).state = .ready ∧
      switching.map.switch ≠ none := by decide +kernel

/-- `served` with a transfer on HP0 whose next byte is the first of `buffer`. -/
def reading (next : LogicalAddr) (buffer : List Byte) (ended : Bool) : State :=
  { served with
    map := { served.map with pinned := if ended then 0 else 1 }
    hp0 :=
      { served.hp0 with
        state := .transfer
        transfer :=
          some
            { next := next, rule := .stable, epoch := if ended then none else some 0, buffer := buffer, arrived := 0,
              ended := ended } } }

/-- `reading` with bytes of the READ in flight in the buffer. -/
def readingOn (next : LogicalAddr) (buffer : List Byte) (arrived : Nat) : State :=
  let s := reading next buffer false
  { s with hp0 := { s.hp0 with transfer := s.hp0.transfer.map (fun t => { t with arrived := arrived }) } }

/-- 11, Table 11.7, R144, R150: with the READ of a chunk granted and one byte of it arrived, the host that clocks two gets that
byte, 0xFF under wait for the other, and the address advances by one. -/
theorem test_bytes_are_delivered_as_they_arrive :
    let s := withTransfer .hp0 (.read 0 256) 0 { reading 0 [] false with mem := [(0, 0x12)] }
    let t := after s (.nextChunk .hp0 { arrived := 1, clocks := 2 })
    s.hp0.wait = true ∧ (after s (.nextChunk .hp0 { arrived := 1, clocks := 0 })).hp0.wait = false ∧
      t.hp0.dataOut = [0x12, 0xFF] ∧ t.hp0.transfer.map HostTransfer.next = some 1 := by decide +kernel

theorem witness_of_chunks_during_an_erase :
    ∀ k, ∃ (s : State) (t : HostTransfer), (s.port .hp0).transfer = some t ∧ t.ended = false ∧ t.epoch = some 0 ∧
      s.flash.slot .hp0 = .empty ∧ s.flash.readInFlight .hp0 = none ∧ t.buffer.length ≤ 256 ∧
      s.flash.erase.map FlashErase.condition = some .running ∧ s.flash.erase.map FlashErase.suspends = some k :=
  fun k => ⟨erasingArea k .running (reading 0 [] false), _, rfl, rfl, rfl, rfl, rfl, Nat.zero_le _, rfl, rfl⟩

theorem witness_ChunksFollowTheBuffer :
    (∃ (s : State) (t : HostTransfer), s = reading 0xFEFF00 (List.replicate 256 0) false ∧ (s.port .hp0).transfer = some t ∧
      s.flash.erase = none ∧
      t.ended = false ∧ t.epoch = some 0 ∧ s.flash.slot .hp0 = .empty ∧ s.flash.readInFlight .hp0 = none ∧
      t.buffer.length = 256 + 0 ∧
      segOf (t.next + 255) < 255 ∧ segOf (t.next + BitVec.ofNat 24 t.buffer.length) = 255) ∧
    (∀ arrived, ∃ (s : State) (t : HostTransfer), (s.port .hp0).transfer = some t ∧ t.arrived = arrived ∧
      s.flash.erase = none ∧ t.ended = false ∧ s.flash.slot .hp0 ≠ .empty ∧ s.flash.readInFlight .hp0 = some (0, 256)) ∧
    (∃ (s : State) (t : HostTransfer), (s.port .hp0).transfer = some t ∧ s.flash.erase = none ∧ t.ended = false ∧
      s.flash.readInFlight .hp0 = some (0, 256)) ∧
    (∃ (s : State) (t : HostTransfer), (s.port .hp0).transfer = some t ∧ s.flash.erase = none ∧ t.ended = true ∧
      (s.port .hp0).held = [] ∧
      s.flash.readInFlight .hp0 = some (0, 256)) ∧
    (∃ (s : State) (t : HostTransfer), (s.port .hp0).transfer = some t ∧ s.flash.erase = none ∧ t.ended = true ∧
      (s.port .hp0).held = [.statusRead 3] ∧ s.flash.readInFlight .hp0 = some (0, 256)) :=
  ⟨⟨_, _, rfl, rfl, rfl, rfl, rfl, rfl, rfl, by decide +kernel, by decide +kernel, by decide +kernel⟩,
    fun arrived => ⟨withTransfer .hp0 (.read 0 256) 0 (readingOn 0 [] arrived), _, rfl, rfl, rfl, rfl, nofun, rfl⟩,
    ⟨withTransfer .hp0 (.read 0 256) 0 (reading 0 [] false), _, rfl, rfl, rfl, rfl⟩,
    ⟨withTransfer .hp0 (.read 0 256) 0 (reading 0 [] true), _, rfl, rfl, rfl, rfl, rfl⟩,
    ⟨withTransfer .hp0 (.read 0 256) 0
      { reading 0 [] true with hp0 := { (reading 0 [] true).hp0 with held := [.statusRead 3] } }, _, rfl, rfl, rfl, rfl, rfl⟩⟩

/-- A READ of HP0 next to a map area under a suspended erase, in flight for a transfer with `buffer`, and another client's
slot. -/
def suspendedRead (buffer : List Byte) (other : Slot) : State :=
  let s := withErase .log .block 0x0FF0000 0 .suspended (withTransfer .hp0 (.read 0x0FEFF00 256) 0 (reading 0 buffer false))
  { s with flash := { s.flash with slotWork := other } }

theorem witness_ReadsHoldTheSuspension :
    (∃ (s : State) (t : HostTransfer) (e : FlashErase), (s.port .hp0).transfer = some t ∧ t.ended = false ∧
      s.flash.erase = some e ∧ e.condition = .suspended ∧ s.flash.readInFlight .hp0 = some (0x0FEFF00, 256) ∧
      0x0FEFF00 + 256 = e.addr ∧ ∀ c addr length, s.flash.slot c ≠ .pending (.read addr length)) ∧
    (∃ (s : State) (t : HostTransfer) (e : FlashErase), (s.port .hp0).transfer = some t ∧ t.ended = false ∧
      s.flash.erase = some e ∧ e.condition = .suspended ∧ s.flash.readInFlight .hp0 = some (0x0FEFF00, 256) ∧
      0x0FEFF00 + 256 = e.addr ∧ s.flash.slot .work = .pending (.read 0 256)) ∧
    (∃ (s : State) (t : HostTransfer) (e : FlashErase), (s.port .hp0).transfer = some t ∧ t.ended = false ∧
      s.flash.erase = some e ∧ e.condition = .suspended ∧ s.flash.readInFlight .hp0 = some (0x0FEFF00, 256) ∧
      0x0FEFF00 + 256 = e.addr ∧ t.epoch.isSome = true ∧ t.arrived = 0 ∧ t.buffer.length + 256 = 256 ∧
      segOf (t.next + BitVec.ofNat 24 (t.buffer.length + 256)) < 255) := by
  refine ⟨⟨suspendedRead [] .empty, _, _, rfl, rfl, rfl, rfl, rfl, rfl, ?_⟩,
    ⟨suspendedRead [] (.pending (.read 0 256)), _, _, rfl, rfl, rfl, rfl, rfl, rfl, rfl⟩,
    ⟨suspendedRead [] .empty, _, _, rfl, rfl, rfl, rfl, rfl, rfl, rfl, rfl, rfl, by decide +kernel⟩⟩
  intro c addr length h
  cases c <;> cases h

theorem witness_TransferEndUnpinsTheEpoch :
    (∀ slot ∈ [Slot.empty, .pending (.read 0 256)], ∃ (s : State) (t : HostTransfer), (s.port .hp0).transfer = some t ∧
      t.ended = false ∧ t.epoch = some 0 ∧ s.flash.erase = none ∧ s.flash.readInFlight .hp0 = none ∧
      s.flash.slot (portClient .hp0) = slot) ∧
    (∃ (s : State) (t : HostTransfer), (s.port .hp0).transfer = some t ∧ t.ended = false ∧ t.epoch = none ∧
      s.map.switch ≠ none ∧ s.flash.slot (portClient .hp0) = .empty ∧ s.flash.readInFlight .hp0 = none) ∧
    (∀ arrived, ∃ (s : State) (t : HostTransfer), (s.port .hp0).transfer = some t ∧ t.arrived = arrived ∧ t.ended = false ∧
      t.epoch = some 0 ∧ s.flash.erase = none ∧ s.flash.readInFlight .hp0 = some (0, 256) ∧
      s.flash.slot (portClient .hp0) = .granted (.read 0 256)) :=
  ⟨fun slot _ => ⟨{ reading 0 [] false with flash := FlashPort.reset.setSlot .hp0 slot }, _, rfl, rfl, rfl, rfl, rfl, rfl⟩,
    ⟨after
        { served with map := { served.map with switch := some { requester := .imageState, flip := 0, endsEpoch := 0 } } }
        (.arrayRead .hp0 0 0),
      _, rfl, rfl, rfl, nofun, rfl, rfl⟩,
    fun arrived => ⟨withTransfer .hp0 (.read 0 256) 0 (readingOn 0 [] arrived), _, rfl, rfl, rfl, rfl, rfl, rfl, rfl⟩⟩

/-! ### Witnesses: erases, programs and control words -/

/-- `served` with no port enabled for update. -/
def noUpdates : State := { served with seq := { served.seq with straps := Straps.unlatched } }

theorem witness_PortLevelChecksRefuse :
    ((served.port .hp0).state = .ready ∧ (served.port .hp0).wel = true) ∧
    (∃ s : State, (s.port .hp0).state = .ready ∧ (s.port .hp0).wel = false) ∧
    segOf 0xFF0000 = 255 ∧ (segOf 0xFEFFFF < 255 ∧ 256 < (0xFEFFFF : LogicalAddr).toNat % 256 + [0x00, 0x01].length) ∧
    ((noUpdates.port .hp1).state = .ready ∧ updEnabled noUpdates.seq.straps.updSel .hp1 = false ∧
      (0xFEFFFF : LogicalAddr).toNat % 256 + [0x00].length ≤ 256) := by
  refine ⟨by decide, ⟨{ served with hp0 := { served.hp0 with wel := false } }, rfl, rfl⟩, by decide, by decide, by decide⟩

theorem witness_EraseStartsASessionOrIsRefused :
    (∀ s ∈ [served, faulted, { served with session := { served.session with lock := .rollback } }],
      (s.port .hp1).state = .ready ∧ (s.port .hp1).wel = true ∧ segOf 0xFEFFFF < 255 ∧
        updEnabled s.seq.straps.updSel .hp1 = true ∧ s.session.owner ≠ some .hp1) ∧
    (served.session.lock = .free ∧ served.log.lock = .ok ∧ (served.entry 254).phase = .stable) ∧
    (faulted.session.lock = .free ∧ faulted.log.lock ≠ .ok) ∧
    ((owned.port .hp1).state = .ready ∧ (owned.port .hp1).wel = true ∧ updEnabled owned.seq.straps.updSel .hp1 = true ∧
      owned.session.owner ≠ some .hp1 ∧ owned.session.lock = .session) := by decide +kernel

theorem witness_OwnerErasesActOnTheShadow :
    ((owned.port .hp0).state = .ready ∧ (owned.port .hp0).wel = true ∧ updEnabled owned.seq.straps.updSel .hp0 = true ∧
      owned.session.state = .active ∧ owned.session.owner = some .hp0 ∧ owned.session.openLogged = true ∧
      owned.flash.slot (portClient .hp0) = .empty ∧ owned.flash.erase = none) ∧
    (segOf 0x000000 < 255 ∧ (owned.entry (segOf 0x000000)).phase = .stable) ∧
    (segOf 0xFE0000 < 255 ∧ (owned.entry (segOf 0xFE0000)).phase = .opened ∧
      (owned.entry (segOf 0xFE0000)).fresh.getLsbD (sectorOf 0xFE0000) = false) ∧
    ((owned.entry (segOf 0xFEFFFF)).phase = .opened ∧
      (owned.entry (segOf 0xFEFFFF)).fresh.getLsbD (sectorOf 0xFEFFFF) = true) := by decide +kernel

theorem witness_ProgramsNeedAFreshSector :
    ((owned.port .hp0).state = .ready ∧ (owned.port .hp0).wel = true ∧ updEnabled owned.seq.straps.updSel .hp0 = true ∧
      owned.session.state = .active ∧ owned.session.owner = some .hp0 ∧ owned.flash.slot (portClient .hp0) = .empty ∧
      owned.flash.erase = none) ∧
    (segOf 0xFEFFFF < 255 ∧ ([0x00] : List Byte) ≠ [] ∧ (0xFEFFFF : LogicalAddr).toNat % 256 + [0x00].length ≤ 256 ∧
      commitWordOf 0xFEFFFF [0x00] ≠ some .abandon ∧ (owned.entry (segOf 0xFEFFFF)).phase = .opened ∧
      (owned.entry (segOf 0xFEFFFF)).fresh.getLsbD (sectorOf 0xFEFFFF) = true) ∧
    ((owned.entry (segOf 0x000FF0)).phase ≠ .opened ∧ commitWordOf 0x000FF0 [0x0F, 0x1E, 0xC3, 0xA5] ≠ some .abandon) ∧
    ((owned.port .hp1).wel = true ∧ updEnabled owned.seq.straps.updSel .hp1 = true ∧ owned.session.owner ≠ some .hp1 ∧
      acceptanceWordOf 0xFEFFFF [0x00] = none) := by decide +kernel

theorem witness_AbandonEndsTheSession :
    (owned.session.state = .active ∧ owned.session.owner = some .hp0 ∧ 0 < owned.session.openCount) ∧
    ((owned.port .hp0).state = .ready ∧ (owned.port .hp0).wel = true ∧ updEnabled owned.seq.straps.updSel .hp0 = true ∧
      (owned.port .hp0).inFlight = none) ∧
    (∀ ms, ∃ s : State, s.session.state = .active ∧ s.session.owner = some .hp0 ∧ s.session.timer = .running ms) ∧
    (∃ (s : State) (f : InFlight), s.session.state = .active ∧ s.session.owner = some .hp0 ∧ (s.port .hp0).state = .opBusy ∧
      (s.port .hp0).inFlight = some f) :=
  ⟨by decide, by decide, fun ms => ⟨{ owned with session := { owned.session with timer := .running ms } }, rfl, rfl, rfl⟩,
    ⟨waiting (.segmentErase 0xFE0000), _, rfl, rfl, rfl, rfl⟩⟩

theorem witness_AcceptIsDecidedInOrder :
    (served.port .hp0).state = .ready ∧ (served.port .hp0).wel = true ∧ updEnabled served.seq.straps.updSel .hp0 = true ∧
      served.session.owner ≠ some .hp0 := by decide

theorem witness_RevertIsDecidedInOrder :
    (owned.port .hp1).state = .ready ∧ (owned.port .hp1).wel = true ∧ updEnabled owned.seq.straps.updSel .hp1 = true ∧
      owned.session.owner ≠ some .hp1 ∧ owned.session.lock ≠ .free := by decide

/-! ### Witnesses: the other requests -/

theorem witness_LatchAndStatusRequests :
    ((served.port .hp0).state = .ready ∧ served.session.owner ≠ some .hp0) ∧ (0x00 : Byte) ∉ commandCodes ∧
    (0x32 : Byte) ∉ commandCodes ∧ incompleteBytes [] = true ∧ incompleteBytes [0x31, 0x00, 0x00] = true ∧
    ((waiting (.segmentErase 0xFE0000)).port .hp0).state = .opBusy := by decide

/-- R38, R73: owners whose soft reset leaves the session as it is. -/
theorem witness_of_soft_resets_that_end_no_session :
    (∃ s : State, (s.port .hp0).state = .commitBusy ∧ s.session.owner = some .hp0 ∧ s.session.state = .closing) ∧
    (∃ s : State, (s.port .hp0).state = .opBusy ∧ s.session.owner = some .hp0 ∧ s.session.state = .ending) :=
  ⟨⟨{ owned with session := { owned.session with state := .closing }, hp0 := { owned.hp0 with state := .commitBusy } },
      rfl, rfl, rfl⟩,
    ⟨{ waiting (.segmentErase 0xFE0000) with session := { owned.session with state := .ending } }, rfl, rfl, rfl⟩⟩

theorem witness_IdentReadReturnsTheFixedBytes :
    (served.port .hp0).state = .ready ∧ ((waiting (.segmentErase 0xFE0000)).port .hp0).state = .opBusy ∧
    (∃ s : State, (s.port .hp1).state = .commitBusy) :=
  ⟨rfl, rfl, ⟨{ served with hp1 := { served.hp1 with state := .commitBusy } }, rfl⟩⟩

theorem witness_BusyAndHeldPortsTakeNoAction :
    ((waiting (.segmentErase 0xFE0000)).port .hp0).state = .opBusy ∧ (State.reset.port .hp0).state = .held ∧
    (∃ (s : State) (t : HostTransfer), (s.port .hp0).state = .transfer ∧ (s.port .hp0).transfer = some t ∧ t.ended = true) :=
  ⟨rfl, rfl, ⟨reading 0 [] true, _, rfl, rfl, rfl⟩⟩

/-! ### Witnesses: the Flash Port -/

theorem witness_of_accesses_that_are_placed :
    ∀ k ∈ [0, 31, 32], ∀ c ∈ [Client.hp0, .hp1, .work], (erasingArea k .running served).flash.slot c = .empty ∧
      (∀ d : Client, ∀ y, (erasingArea k .running served).flash.slot d = .pending y → y.isRead = false) := by
  intro k _ c hc
  refine ⟨by cases c <;> first | rfl | simp at hc, fun d y h => by cases d <;> cases h⟩

theorem witness_ArbiterGrantsInRotation :
    (∃ s : State, rotation s.flash.pointer = [.hp0, .hp1] ++ .log :: [.work] ∧
      s.flash.slot .log = .pending (.blockErase 0x1FF0000) ∧
      (Access.blockErase 0x1FF0000).addr + (Access.blockErase 0x1FF0000).length ≤ 0x2000000 ∧ s.flash.transfer = none ∧
      s.flash.resetting = false ∧ s.flash.erase = none ∧ ∀ d ∈ [Client.hp0, .hp1], ∀ x, s.flash.slot d ≠ .pending x) ∧
    (∃ (s : State) (e : FlashErase), s.flash.erase = some e ∧ e.condition = .suspended ∧
      s.flash.slot .work = .pending (.read 0x1FFFFFF 1) ∧
      (Access.read 0x1FFFFFF 1).addr + (Access.read 0x1FFFFFF 1).length ≤ 0x2000000 ∧ s.flash.transfer = none ∧
      s.flash.resetting = false ∧ rotation s.flash.pointer = [.hp0, .hp1, .log] ++ .work :: [] ∧
      ∀ d ∈ [Client.hp0, .hp1, .log], ∀ x, s.flash.slot d = .pending x → x.isRead = false) ∧
    (∃ (s : State) (e : FlashErase), s.flash.erase = some e ∧ e.condition = .suspending ∧ e.runTime + 1 = e.kind.limit ∧
      s.flash.transfer = none ∧ s.flash.resetting = false ∧ s.flash.slot .hp0 = .pending (.read 0 256) ∧
      rotation s.flash.pointer = [] ++ .hp0 :: [.hp1, .log, .work]) ∧
    (∃ (s : State) (e : FlashErase), s.flash.erase = some e ∧ e.condition = .suspending ∧ e.runTime < e.kind.limit ∧
      s.flash.transfer = none ∧ s.flash.resetting = false ∧
      ∀ c y, s.flash.slot c = .pending y → y.isRead = false) := by
  refine ⟨⟨{ served with flash := { FlashPort.reset with slotLog := .pending (.blockErase 0x1FF0000) } }, rfl, rfl, by decide,
    rfl, rfl, rfl, ?_⟩, ⟨withErase .hp0 .block 0x1000000 5999 .suspended
      { served with flash := { FlashPort.reset with slotWork := .pending (.read 0x1FFFFFF 1) } }, _, rfl, rfl, rfl, by decide,
      rfl, rfl, rfl, ?_⟩,
    ⟨withErase .log .block 0x1000000 5999 .suspending
      { served with flash := { FlashPort.reset with slotHp0 := .pending (.read 0 256) } }, _, rfl, rfl, rfl, rfl, rfl, rfl,
      rfl⟩,
    ⟨withErase .log .block 0x1000000 0 .suspending served, _, rfl, rfl, by decide, rfl, rfl, ?_⟩⟩
  · intro d hd x h
    cases d <;> simp at hd <;> cases h
  · intro d hd x h
    cases d <;> simp at hd <;> cases h
  · intro c y h
    cases c <;> cases h

/-- `waiting` for an opening of segment 1, whose block erase is in progress. -/
def opening : State :=
  withErase .hp0 .block 0x1010000 5999 .running
    ((waiting (.segmentErase 0x010000)).setEntry 1
      { bank := .a, phase := .opening, fresh := 0, damaged := false, toOpen := 0xFFFF })

/-- `waiting` for a program of the last byte of segment 254. -/
def programming : State :=
  withTransfer .hp0 (.program 0x1FEFFFF [0x00]) 7 (waiting (.program 0xFEFFFF [0x00]))

/-- A state with the session in ENDING. -/
def ending (s : State) : State :=
  { s with session := { s.session with state := .ending, endReason := some .owner, timer := .stopped } }

/-- A state with the idle timer paused. -/
def paused (s : State) : State := { s with session := { s.session with timer := .paused 10000 } }

/-- `waiting` for an erase in the shadow of segment 254. -/
def shadowErasing (kind : EraseKind) (addr run : Nat) : State :=
  withErase .hp0 kind addr run .running (waiting (.sectorErase 0xFEF000))

theorem witness_TimeoutFailsTheOperation :
    (∀ s ∈ [passTime programming, passTime opening, shadowErasing .sector 0x1FEF000 1600, shadowErasing .block 0x1FE0000 6000],
      (paused s).session.state = .active ∧ (paused s).session.timer = .paused 10000 ∧ (ending s).session.state = .ending ∧
        ∀ x ∈ [s, paused s, ending s], x.session.owner = some .hp0 ∧ (x.port .hp0).state = .opBusy ∧
          (x.port .hp0).inFlight = (s.port .hp0).inFlight ∧ x.flash = s.flash ∧ x.map = s.map) ∧
    (((passTime programming).port .hp0).inFlight = some (.program 0xFEFFFF [0x00]) ∧
      (passTime programming).flash.transfer =
        some { client := portClient .hp0, access := .program 0x1FEFFFF [0x00], runTime := 8 } ∧
      ((passTime programming).entry (segOf 0xFEFFFF)).phase = .opened) ∧
    (((passTime opening).port .hp0).inFlight = some (.segmentErase 0x010000) ∧ (passTime opening).flash.transfer = none ∧
      ∃ e, (passTime opening).flash.erase = some e ∧ e.client = portClient .hp0 ∧ e.kind = .block ∧ e.condition ≠ .suspended ∧
        e.runTime = 6000 ∧ ((passTime opening).entry (segOfPhys e.addr)).phase = .opening) ∧
    (∀ kind, ∃ (s : State) (e : FlashErase) (f : InFlight), (s.port .hp0).inFlight = some f ∧ f.isProgram = false ∧
      s.flash.transfer = none ∧ s.flash.erase = some e ∧ e.client = portClient .hp0 ∧ e.condition ≠ .suspended ∧
      e.kind = kind ∧ e.runTime = kind.limit ∧ (s.entry (segOfPhys e.addr)).phase = .opened) ∧
    ((programming.flash.transfer.map FlashTransfer.runTime = some 7) ∧ opening.flash.transfer = none ∧
      ∃ e, opening.flash.erase = some e ∧ e.kind = .block ∧ e.runTime = 5999) := by
  refine ⟨by decide +kernel, by decide +kernel, ⟨rfl, rfl, _, rfl, rfl, rfl, by decide, rfl, by decide +kernel⟩, fun kind => ?_,
    rfl, rfl, _, rfl, rfl, rfl⟩
  cases kind
  · exact ⟨shadowErasing .sector 0x1FEF000 1600, _, _, rfl, rfl, rfl, rfl, rfl, by decide, rfl, rfl, by decide +kernel⟩
  · exact ⟨shadowErasing .block 0x1FE0000 6000, _, _, rfl, rfl, rfl, rfl, rfl, by decide, rfl, rfl, by decide +kernel⟩

theorem witness_of_timeouts_of_a_map_area_erase :
    ∀ log : LogUnit, ∃ (s : State) (e : FlashErase), s.log = log ∧ s.flash.transfer = none ∧ s.flash.erase = some e ∧
      e.client = .log ∧ e.condition ≠ .suspended ∧ e.kind.limit = e.runTime :=
  fun log => ⟨withErase .log .block 0x1FF0000 6000 .suspending { served with log := log }, _, rfl, rfl, rfl, rfl, nofun, rfl⟩

theorem witness_of_timeouts_of_a_program (client : Client) (log : LogUnit) (commit : CommitRecord) :
    ∃ s : State, s.log = log ∧ s.commit = commit ∧
      s.flash.transfer = some { client := client, access := .program 0 [0], runTime := 8 } :=
  ⟨withTransfer client (.program 0 [0]) 8 { served with log := log, commit := commit }, rfl, rfl, rfl⟩

/-- The stages of the Log Unit at which a program or an erase can time out. -/
theorem witness_of_stages_at_a_timeout :
    (∀ stage ∈ [AppendStage.write, .retryWrite, .compacting .erase, .compacting .header, .compacting .base],
      ∃ (log : LogUnit) (w : Append) (b : RecordBody), log.append = some w ∧ log.queue = [b] ∧ w.stage = stage) ∧
    (∀ step, ∃ log : LogUnit, log.append = none ∧ log.initStep = some step) ∧
    (∃ commit : CommitRecord, commit.stage = .fill) :=
  ⟨fun stage _ =>
      ⟨{ LogUnit.reset with queue := [.opened], append := some { stage := stage, position := 2, seq := 2, retry := false } },
        _, _, rfl, rfl, rfl⟩,
    fun step => ⟨{ LogUnit.reset with initStep := some step }, rfl, rfl⟩, ⟨{ CommitRecord.reset with stage := .fill }, rfl⟩⟩

/-- R136: a program times out at 8 ms, not at 7 ms. -/
theorem test_program_times_out_at_8_ms :
    (after programming (.operationTimeout [])).faults.flashTimeout = false ∧
    (after (passTime programming) (.operationTimeout [])).faults.flashTimeout = true ∧
    (after (passTime programming) (.operationTimeout [])).hp0.code = .opFailed := by decide +kernel

/-! ### Witnesses: the owner's operations -/


theorem witness_OwnerErasesComplete :
    (∀ s ∈ [opening, shadowErasing .sector 0x1FEF000 1599, shadowErasing .block 0x1FE0000 0],
      (paused s).session.state = .active ∧ (paused s).session.timer = .paused 10000 ∧ (ending s).session.state = .ending ∧
        ∀ x ∈ [s, paused s, ending s], x.session.owner = some .hp0 ∧ (x.port .hp0).state = .opBusy ∧
          (x.port .hp0).inFlight = (s.port .hp0).inFlight ∧ x.flash = s.flash ∧ x.map = s.map) ∧
    (∃ e f, (opening.port .hp0).inFlight = some f ∧ f.isProgram = false ∧ opening.flash.erase = some e ∧
      e.client = portClient .hp0 ∧ e.condition ≠ .suspended ∧ e.runTime < e.kind.limit ∧ e.kind = .block ∧
      (opening.entry (segOfPhys e.addr)).phase = .opening) ∧
    (∀ kind, ∃ (s : State) (e : FlashErase) (f : InFlight), (s.port .hp0).inFlight = some f ∧ f.isProgram = false ∧
      s.flash.erase = some e ∧
      e.client = portClient .hp0 ∧ e.condition ≠ .suspended ∧ e.runTime < e.kind.limit ∧ e.kind = kind ∧
      (s.entry (segOfPhys e.addr)).phase = .opened) := by
  refine ⟨by decide +kernel, ⟨_, _, rfl, rfl, rfl, rfl, by decide, by decide, rfl, by decide +kernel⟩, fun kind => ?_⟩
  cases kind
  · exact ⟨shadowErasing .sector 0x1FEF000 1599, _, _, rfl, rfl, rfl, rfl, by decide, by decide, rfl, by decide +kernel⟩
  · exact ⟨shadowErasing .block 0x1FE0000 0, _, _, rfl, rfl, rfl, rfl, by decide, by decide, rfl, by decide +kernel⟩

/-- `waiting` for the program of START-COMMIT into an OPEN segment 0. -/
def committing : State :=
  withTransfer .hp0 (.program 0x1000FF0 [0x0F, 0x1E, 0xC3, 0xA5]) 0
    ((waiting (.program 0x000FF0 [0x0F, 0x1E, 0xC3, 0xA5])).setEntry 0
      { bank := .a, phase := .opened, fresh := 0x0001, damaged := false, toOpen := 0 })

/-- `committing` with segment 254 damaged. -/
def committingDamaged : State :=
  committing.setEntry 254 { bank := .a, phase := .opened, fresh := 0x8000, damaged := true, toOpen := 0 }

theorem witness_OwnerProgramCompletes :
    (∀ s ∈ [programming, committing, committingDamaged], s.session.owner = some .hp0 ∧ (s.port .hp0).state = .opBusy ∧
      s.flash.erase = none ∧ (s.flash.transfer.map FlashTransfer.client) = some (portClient .hp0) ∧
      s.session.state = .active ∧ (paused s).session.state = .active ∧ (ending s).session.state = .ending ∧
      (ending s).hp0 = s.hp0 ∧ (ending s).flash = s.flash) ∧
    (programming.flash.transfer = some { client := .hp0, access := .program 0x1FEFFFF [0x00], runTime := 7 }) ∧
    ((committingDamaged.port .hp0).inFlight = some (.program 0x000FF0 [0x0F, 0x1E, 0xC3, 0xA5]) ∧
      (committingDamaged.entry 0).phase = .opened ∧ 254 < committingDamaged.map.entries.length ∧
      (committingDamaged.entry 254).damaged = true ∧ ∀ k < 254, (committingDamaged.entry k).damaged = false) ∧
    ((programming.port .hp0).inFlight = some (.program 0xFEFFFF [0x00]) ∧ (programming.entry 254).phase = .opened ∧
      commitWordOf 0xFEFFFF [0x00] ≠ some .startCommit) ∧
    ((committing.port .hp0).inFlight = some (.program 0x000FF0 [0x0F, 0x1E, 0xC3, 0xA5]) ∧
      (committing.entry 0).phase = .opened ∧ commitWordOf 0x000FF0 [0x0F, 0x1E, 0xC3, 0xA5] = some .startCommit ∧
      (∀ e ∈ committing.map.entries, e.damaged = false) ∧ committing.flash.slotWork = .empty) := by decide +kernel

/-! ### Witnesses: checks and commits -/

/-- A header summary with the serial 9 and the used lengths of the segments 0 and on. -/
def summaryOf (used : List Word32) : HeaderSummary := { valid := true, serial := 9, headerCrc := 5, used := used }

/-- `owned` in CLOSING, the Commit Engine in a stage, HP0 in COMMIT_BUSY. -/
def closing (stage : CommitStage) (used : List Word32) : State :=
  { owned with
    session := { owned.session with state := .closing }
    commit := { CommitRecord.reset with stage := stage, summary := some (summaryOf used) }
    hp0 := { owned.hp0 with state := .commitBusy, wel := false } }

/-- The reader of a client in a range of a length, of which `count` bytes have been taken. -/
def readerAt (client : CheckClient) (work : ReaderWork) (length count : Nat) (s : State) : State :=
  { s with
    check :=
      { running := true, client := some client, kind := some .segment, length := length, count := count, crc := crcStart }
    reader := some { client := client, work := work } }

theorem witness_RangesAreReadChunkByChunk :
    (∃ s : State, s.flash.readInFlight .work = some (0x1FE0000, 256) ∧ s.flash.erase = none ∧
      s.reader = some { client := .commitEngine, work := .segment 254 0 } ∧ s.check.running = true ∧
      s.check.count + 256 = s.check.length) ∧
    (∃ s : State, s.flash.readInFlight .work = some (0, 256) ∧ s.flash.erase = none ∧
      s.reader = some { client := .sequencer, work := .segment 0 0 } ∧ s.check.running = true ∧
      s.check.count + 256 < s.check.length) ∧
    (∃ s : State, s.flash.readInFlight .work = some (0x10, 8) ∧ s.flash.erase = none ∧
      s.reader = some { client := .commitEngine, work := .descriptor 0 } ∧ s.commit.summary = some (summaryOf [61440])) ∧
    (∀ client, ∃ s : State, s.flash.readInFlight .work = some (0x800, 8) ∧ s.flash.erase = none ∧
      s.reader = some { client := client, work := .header HeaderCapture.empty } ∧ s.check.running = true ∧
      s.check.count + 8 = s.check.length) ∧
    (∀ client, ∃ s : State, s.flash.readInFlight .work = some (0, 256) ∧ s.flash.erase = none ∧
      s.reader = some { client := client, work := .header HeaderCapture.empty } ∧ s.check.running = true ∧
      s.check.count + 256 < s.check.length) ∧
    (List.replicate 256 (0x00 : Byte)).length % 4 = 0 :=
  ⟨⟨withTransfer .work (.read 0x1FE0000 256) 0 (readerAt .commitEngine (.segment 254 0) 65536 65280 (closing .verify [])), rfl,
      rfl, rfl, rfl, rfl⟩,
    ⟨withTransfer .work (.read 0 256) 0 (readerAt .sequencer (.segment 0 0) 61440 0 served), rfl, rfl, rfl, rfl, by decide⟩,
    ⟨withTransfer .work (.read 0x10 8) 0
      { closing .verify [61440] with reader := some { client := .commitEngine, work := .descriptor 0 } }, rfl, rfl, rfl, rfl⟩,
    fun client =>
      ⟨withTransfer .work (.read 0x800 8) 0 (readerAt client (.header HeaderCapture.empty) 2056 2048 served), rfl, rfl, rfl, rfl,
        rfl⟩,
    fun client =>
      ⟨withTransfer .work (.read 0 256) 0 (readerAt client (.header HeaderCapture.empty) 2056 0 served), rfl, rfl, rfl, rfl,
        Nat.lt_of_sub_ne_zero (by decide : 2056 - 256 ≠ 0)⟩,
    by decide +kernel⟩

/-- A header captured whole, with the serial 9, the CRC-32 of no byte and the used lengths of the segments 0 and on. -/
def captured (magic : Word32) (used : List Word32) : HeaderCapture :=
  { magic := magic, format := 1, count := 255, serial := 9, headerCrc := 0, used := used, exceeded := false }

/-- The start-up check in a pass, of an image with a serial. -/
def checking (pass : CheckPass) (serial : Word32) (target : Bool) : State :=
  { atStart .check .running with
    seq := { (atStart .check .running).seq with checkPass := pass, summary := some (summaryOf [0, 0, 5]) }
    image := { ImageUnit.reset with state := .trial, serial := serial, targetValid := target } }

theorem witness_of_segments_left_to_verify :
    (∃ s : State, s.check.running = true ∧ s.check.count = s.check.length ∧ crcFinish s.check.crc = 0 ∧
      (summaryOf [0, 0, 5]).used.getD 2 0 ≠ 0 ∧ (∀ k, 0 < k → k < 2 → (summaryOf [0, 0, 5]).used.getD k 0 = 0) ∧
      s.flash.slotWork = .empty ∧ s.flash.erase = none ∧
      s.reader = some { client := .sequencer, work := .segment 0 0 } ∧ s.seq.summary = some (summaryOf [0, 0, 5])) ∧
    (∃ s : State, s.check.running = true ∧ s.check.count = s.check.length ∧ crcFinish s.check.crc = 0 ∧
      s.flash.slotWork = .empty ∧ s.flash.erase = none ∧
      s.reader = some { client := .commitEngine, work := .segment 0 0 } ∧ s.commit.summary = some (summaryOf [0, 0, 5])) :=
  ⟨⟨readerAt .sequencer (.segment 0 0) 4 4 (checking .first 9 true), rfl, rfl, by decide, by decide,
      by intro k h1 h2; obtain rfl : k = 1 := by omega
         rfl, rfl, rfl, rfl, rfl⟩,
    ⟨readerAt .commitEngine (.segment 0 0) 4 4 (closing .verify [0, 0, 5]), rfl, rfl, by decide, rfl, rfl, rfl, rfl⟩⟩

theorem witness_of_headers_to_judge :
    ((headerSummary (captured 0 []) (crcFinish crcStart)).valid = false ∧
      (headerSummary (captured Config.imageMagic [0, 5]) (crcFinish crcStart)).valid = true ∧
      (headerSummary (captured Config.imageMagic [0, 5]) (crcFinish crcStart)).serial = 9 ∧
      (headerSummary (captured Config.imageMagic [0, 5]) (crcFinish crcStart)).used = [0, 5]) ∧
    (∀ cap, ∃ s : State, s.check.running = true ∧ s.check.count = s.check.length ∧ s.check.crc = crcStart ∧
      s.reader = some { client := .commitEngine, work := .header cap } ∧ s.session.owner = some .hp0 ∧
      (s.port .hp0).state = .commitBusy ∧ s.image.state ≠ .virgin ∧ s.image.serial.toNat = 9) ∧
    (∀ cap pass serial target, ∃ s : State, s.check.running = true ∧ s.check.count = s.check.length ∧
      s.check.crc = crcStart ∧ s.reader = some { client := .sequencer, work := .header cap } ∧ s.seq.checkPass = pass ∧
      s.image.serial = serial ∧ s.image.targetValid = target ∧ s.flash.slotWork = .empty ∧ s.flash.erase = none) ∧
    (∀ pass target, ∃ s : State, s.check.running = true ∧ s.check.count = s.check.length ∧ crcFinish s.check.crc ≠ 1 ∧
      s.reader = some { client := .sequencer, work := .segment 0 1 } ∧ s.seq.checkPass = pass ∧
      s.image.targetValid = target) :=
  ⟨by decide +kernel,
    fun cap =>
      ⟨readerAt .commitEngine (.header cap) 4 4
        { closing .header [] with image := { ImageUnit.reset with state := .confirmed, serial := 9 } }, rfl, rfl, rfl, rfl, rfl,
        rfl, (by intro h; cases h), rfl⟩,
    fun cap pass serial target =>
      ⟨readerAt .sequencer (.header cap) 4 4 (checking pass serial target), rfl, rfl, rfl, rfl, rfl, rfl, rfl, rfl, rfl⟩,
    fun pass target =>
      ⟨readerAt .sequencer (.segment 0 1) 4 4 (checking pass 9 target), rfl, rfl,
        (by decide : crcFinish crcStart ≠ 1), rfl, rfl, rfl⟩⟩

theorem witness_VerificationDecidesByTheCheckValue :
    (∃ s : State, s.check.running = true ∧ s.check.count = s.check.length ∧ crcFinish s.check.crc = 0 ∧
      (∀ k, 254 < k → (summaryOf []).used.getD k 0 = 0) ∧
      s.reader = some { client := .sequencer, work := .segment 254 0 } ∧ s.seq.summary = some (summaryOf [])) ∧
    (∃ s : State, s.check.running = true ∧ s.check.count = s.check.length ∧ crcFinish s.check.crc = 0 ∧
      (∀ k, 254 < k → (summaryOf []).used.getD k 0 = 0) ∧
      s.reader = some { client := .commitEngine, work := .segment 254 0 } ∧ s.commit.summary = some (summaryOf [])) ∧
    (∃ s : State, s.check.running = true ∧ s.check.count = s.check.length ∧ crcFinish s.check.crc ≠ 1 ∧
      s.reader = some { client := .commitEngine, work := .segment 0 1 } ∧ s.session.owner = some .hp0 ∧
      0 < s.session.openCount ∧ (s.port .hp0).state = .commitBusy) ∧
    (∃ s : State, s.check.running = true ∧ s.check.count = s.check.length ∧ crcFinish s.check.crc ≠ 1 ∧
      s.reader = some { client := .sequencer, work := .segment 0 1 } ∧ s.seq.checkPass = .first ∧
      s.image.targetValid = true) :=
  ⟨⟨readerAt .sequencer (.segment 254 0) 4 4 { atStart .check .running with
        seq := { (atStart .check .running).seq with summary := some (summaryOf []) } },
      rfl, rfl, by decide, fun k _ => rfl, rfl, rfl⟩,
    ⟨readerAt .commitEngine (.segment 254 0) 4 4 (closing .verify []), rfl, rfl, by decide, fun k _ => rfl, rfl, rfl⟩,
    ⟨readerAt .commitEngine (.segment 0 1) 4 4 (closing .verify []), rfl, rfl, by decide, rfl, rfl, by decide, rfl⟩,
    ⟨readerAt .sequencer (.segment 0 1) 4 4 { atStart .check .running with
        seq := { (atStart .check .running).seq with checkPass := .first }
        image := { ImageUnit.reset with state := .trial, targetValid := true } },
      rfl, rfl, by decide, rfl, rfl, rfl⟩⟩

/-- The fill of segment 254 at a page of its sector 0. -/
def filling (page : Nat) : State :=
  { closing .fill [] with
    commit := { (closing .fill []).commit with cursor := some { seg := 254, sector := 0 }, page := page } }

theorem witness_of_the_ways_a_fill_goes_on :
    (∃ s : State, s.reader = some { client := .commitEngine, work := .header (captured Config.imageMagic [0, 5]) } ∧
      s.check.running = true ∧ s.check.count = s.check.length ∧ s.check.crc = crcStart ∧ s.flash.slotWork = .empty ∧
      s.flash.erase = none ∧ s.map.entries.length = 255 ∧ s.image.state = .virgin) ∧
    ((owned.entry 254).phase = .opened ∧ (owned.entry 254).fresh ≠ 0xFFFF ∧ (owned.entry 254).fresh.getLsbD 0 = false ∧
      ∀ k < 254, (owned.entry k).phase ≠ .opened) ∧
    ((∀ k < 255, (served.entry k).phase ≠ .opened) ∧ (summaryOf [0, 5]).used.getD 1 0 ≠ 0 ∧
      (summaryOf [0, 5]).used.getD 0 0 = 0 ∧ ∀ k, (summaryOf []).used.getD k 0 = 0) ∧
    (∃ s : State, s.commit.stage = .fill ∧ s.commit.cursor = some { seg := 254, sector := 0 } ∧ s.commit.page = 15 ∧
      s.flash.erase = none ∧ s.flash.transfer = some { client := .work, access := .program 0x1FE0F00 [0], runTime := 7 } ∧
      (s.entry 254).fresh.getLsbD 1 = false) ∧
    (∃ s : State, s.commit.stage = .fill ∧ s.commit.cursor = some { seg := 254, sector := 14 } ∧ s.commit.page = 15 ∧
      s.flash.erase = none ∧ s.flash.transfer = some { client := .work, access := .program 0x1FEEF00 [0], runTime := 7 } ∧
      (∀ j, 14 < j → j < 16 → (s.entry 254).fresh.getLsbD j = true) ∧ s.map.entries.length = 255 ∧
      s.commit.summary = some (summaryOf []) ∧ (s.entry 254).phase = .filling) := by
  refine ⟨⟨readerAt .commitEngine (.header (captured Config.imageMagic [0, 5])) 4 4 (closing .header []), rfl, rfl, rfl, rfl, rfl,
      rfl, by decide +kernel, rfl⟩, by decide +kernel, ⟨by decide +kernel, by decide, rfl, fun k => rfl⟩,
    ⟨withTransfer .work (.program 0x1FE0F00 [0]) 7 (filling 15), rfl, rfl, rfl, rfl, rfl, by decide +kernel⟩,
    ⟨withTransfer .work (.program 0x1FEEF00 [0]) 7
        (State.setEntry
          { closing .fill [] with
            commit := { (closing .fill []).commit with cursor := some { seg := 254, sector := 14 }, page := 15 } }
          254 { bank := .a, phase := .filling, fresh := 0x8000, damaged := false, toOpen := 0 }),
      rfl, rfl, rfl, rfl, rfl, ?_, by decide +kernel, rfl, by decide +kernel⟩⟩
  intro j h1 h2
  obtain rfl : j = 15 := by omega
  decide +kernel

theorem witness_FillCopiesPageByPage :
    ((filling 15).commit.stage = .fill ∧ (filling 15).commit.cursor = some { seg := 254, sector := 0 } ∧
      (filling 15).commit.buffer = none ∧
      (withTransfer .work (.read 0xFE0F00 256) 0 (filling 15)).flash.readInFlight .work = some (0xFE0F00, 256) ∧
      (filling 15).flash.erase = none) ∧
    ((filling 14).commit.page < 15 ∧
      (withTransfer .work (.program 0x1FE0E00 [0]) 7 (filling 14)).flash.transfer =
        some { client := .work, access := .program 0x1FE0E00 [0], runTime := 7 } ∧
      (filling 14).session.owner = some .hp0 ∧ 0 < (filling 14).session.openCount ∧
      ((filling 14).port .hp0).state = .commitBusy) := by decide +kernel

/-! ### Witnesses: the Log Unit -/

/-- A state in which HP1 waits for the CONFIRM record of the active serial 0. -/
def accepting (position : Nat) (next : Word32) : State :=
  { served with
    image := { served.image with state := .confirming, acceptance := some (.hp1, 0) }
    log := { served.log with queue := [.confirm 0], position := position, nextSeq := next }
    hp1 := { served.hp1 with state := .opBusy, inFlight := some (.program 0x000FF4 [0x11, 0x0A, 0xC3, 0x5A]) } }

theorem witness_AppendWritesCompactsOrIsRefused :
    (∀ s ∈ [accepting 511 0xFFFFFFFE, accepting 512 0xFFFFFFFD, accepting 511 0xFFFFFFFF, accepting 512 0xFFFFFFFE,
        accepting 512 0xFFFFFFFF],
      s.log.queue = [.confirm 0] ∧ s.log.append = none ∧ s.log.initStep = none ∧ s.log.replay = none ∧ s.log.lock = .ok ∧
        s.log.area = some .zero ∧ s.flash.slotLog = .empty ∧ s.flash.erase = none ∧ s.image.acceptance = some (.hp1, 0) ∧
        s.image.state = .confirming ∧ (s.port .hp1).state = .opBusy ∧ s.session.owner ≠ some .hp1) ∧
    (∃ s : State, s.log.queue = [.confirm 0] ∧ s.log.append = none ∧ s.log.lock ≠ .ok ∧
      s.image.acceptance = some (.hp1, 0)) :=
  ⟨by decide +kernel,
    ⟨{ accepting 2 2 with log := { (accepting 2 2).log with lock := .corrupt } }, rfl, rfl, by decide, rfl⟩⟩

/-- A state with a request at the head of the append queue and a rollback of a requester. -/
def asking (b : RecordBody) (rollback : Option (RollbackRequester × RollbackCause)) (s : State) : State :=
  { s with log := { s.log with queue := [b] }, image := { s.image with rollback := rollback } }

/-- A state whose Log Unit is FAULTED. -/
def logFaulted (s : State) : State := { s with log := { s.log with lock := .faulted } }

/-- R87: a compaction is refused at the next sequence number 0xFFFFFFFE, and begins at 0xFFFFFFFD. -/
theorem test_compaction_needs_two_sequence_numbers :
    (after (accepting 512 0xFFFFFFFE) .appendWrite).log.lock = .faulted ∧
    (after (accepting 512 0xFFFFFFFE) .appendWrite).flash.slotLog = .empty ∧
    (after (accepting 512 0xFFFFFFFD) .appendWrite).flash.slotLog = .pending (.blockErase 0x1FF0000) := by decide +kernel

/-- A session in a state whose OPEN record has been asked for by the erase in flight on HP0. -/
def openAsked (state : SessionState) (f : InFlight) : State :=
  { waiting f with
    session := { owned.session with state := state, openCount := 0, openLogged := false }
    log := { served.log with queue := [.opened] } }

theorem witness_of_refused_opens :
    ∀ state ∈ [SessionState.active, .ending], ∃ s : State, s.log.queue = [.opened] ∧ s.log.append = none ∧
      s.log.initStep = none ∧ s.log.replay = none ∧ s.log.lock ≠ .ok ∧ s.session.state = state ∧
      s.session.owner = some .hp0 ∧ (s.port .hp0).state = .opBusy ∧
      (s.port .hp0).inFlight = some (.segmentErase 0x010000) :=
  fun state _ => ⟨logFaulted (openAsked state (.segmentErase 0x010000)), rfl, rfl, rfl, rfl, nofun, rfl, rfl, rfl, rfl⟩

theorem witness_of_refused_requests :
    (∃ s : State, s.log.queue = [.commit 0 9 5 1] ∧ s.log.append = none ∧ s.log.initStep = none ∧ s.log.replay = none ∧
      s.log.lock ≠ .ok ∧ s.session.owner = some .hp0 ∧ (s.port .hp0).state = .commitBusy) ∧
    (∀ b who, ∃ s : State, s.log.queue = [b] ∧ s.log.append = none ∧ s.log.initStep = none ∧ s.log.replay = none ∧
      s.log.lock ≠ .ok ∧ s.image.rollback = who) ∧
    (∃ s : State, s.log.queue = [.rollback 1 4 .requested] ∧ s.log.append = none ∧ s.log.initStep = none ∧
      s.log.replay = none ∧ s.log.lock ≠ .ok ∧ s.image.rollback = some (.port .hp0, .requested) ∧
      s.session.lock = .rollback ∧ s.session.owner ≠ some .hp0 ∧ (s.port .hp0).state = .opBusy) :=
  ⟨⟨logFaulted (asking (.commit 0 9 5 1) none (closing .record [])), rfl, rfl, rfl, rfl, by decide, rfl, rfl⟩,
    fun b who => ⟨logFaulted (asking b who (atStart .trialStep .running)), rfl, rfl, rfl, rfl, (by intro h; cases h), rfl⟩,
    ⟨logFaulted (asking (.rollback 1 4 .requested) switching.image.rollback switching), rfl, rfl, rfl, rfl, by decide, rfl, rfl,
      by decide, rfl⟩⟩

theorem witness_of_requests_whose_record_is_written :
    ∀ b who pinned stage, ∃ (s : State) (w : Append), s.log.queue = [b] ∧ s.log.append = some w ∧ w.stage = stage ∧
      s.flash.erase = none ∧
      s.flash.transfer = some { client := .log, access := .program 0x0FF0100 [0], runTime := 7 } ∧
      s.image.rollback = who ∧ s.map.pinned = pinned :=
  fun b who pinned stage =>
    ⟨withTransfer .log (.program 0x0FF0100 [0]) 7
        (asking b who
          { served with
            map := { served.map with pinned := pinned }
            log := { served.log with append := some { stage := stage, position := 2, seq := 2, retry := false } } }),
      _, rfl, rfl, rfl, rfl, rfl, rfl, rfl⟩

theorem owned_entries_stable :
    (owned.entry (segOf 0xFDF000)).phase = .stable ∧ (owned.entry (segOf 0x010000)).phase = .stable := by decide +kernel

theorem witness_of_opens_whose_record_is_written :
    ∀ stage ∈ [AppendStage.write, .retryWrite], ∀ state ∈ [SessionState.active, .ending],
      ∀ f ∈ [InFlight.sectorErase 0xFDF000, .segmentErase 0xFDF000],
        ∃ (s : State) (w : Append), s.log.queue = [.opened] ∧ s.log.append = some w ∧ w.stage = stage ∧ s.flash.erase = none ∧
          s.flash.transfer = some { client := .log, access := .program 0x0FF0100 [0], runTime := 7 } ∧
          s.session.state = state ∧ s.session.owner = some .hp0 ∧ (s.port .hp0).state = .opBusy ∧
          (s.port .hp0).inFlight = some f ∧ (s.entry (segOf 0xFDF000)).phase = .stable ∧
          s.flash.slot (portClient .hp0) = .empty :=
  fun stage _ state _ f _ =>
    ⟨withTransfer .log (.program 0x0FF0100 [0]) 7
        { openAsked state f with
          log :=
            { (openAsked state f).log with append := some { stage := stage, position := 2, seq := 2, retry := false } } },
      _, rfl, rfl, rfl, rfl, rfl, rfl, rfl, rfl, rfl, owned_entries_stable.1, rfl⟩

theorem witness_RecordProgramEnds :
    ∃ (s : State) (w : Append), s.log = { (accepting 511 4).log with append := some w } ∧ w.stage = .write ∧ s.flash.erase = none ∧
      s.flash.transfer = some { client := .log, access := .program 0x0FFFF80 [0], runTime := 7 } ∧
      s.image.acceptance = some (.hp1, 0) ∧ s.image.state = .confirming ∧ s.image.serial = 0 ∧
      (s.port .hp1).state = .opBusy ∧ s.session.owner ≠ some .hp1 :=
  ⟨withTransfer .log (.program 0x0FFFF80 [0]) 7
      { accepting 511 4 with
        log := { (accepting 511 4).log with append := some { stage := .write, position := 511, seq := 4, retry := false } } },
    _, rfl, rfl, rfl, rfl, rfl, rfl, rfl, rfl, by decide⟩

/-- A session that waits for its OPEN record, in a stage of the append, with a position of the log holding `bytes`. -/
def openLogging (stage : AppendStage) (position : Nat) (cells : List Host.Cell) : State :=
  withTransfer .log (.read 0x0FF0100 128) 0
    { waiting (.segmentErase 0x010000) with
      mem := cells
      session := { owned.session with openCount := 0, openLogged := false }
      log :=
        { served.log with
          queue := [.opened], position := position
          append := some { stage := stage, position := 2, seq := 2, retry := false } } }

theorem openLogging_map (stage : AppendStage) (position : Nat) (cells : List Host.Cell) :
    (openLogging stage position cells).map = owned.map := rfl

theorem openLogging_mem (stage : AppendStage) (position : Nat) (cells : List Host.Cell) :
    (openLogging stage position cells).mem = cells := rfl

/-- The flash with an OPEN record of number 2 at position 2 of area 0. -/
def openRecordCells : List Host.Cell := listed 0x0FF0100 (recordBytes 2 .opened)

set_option maxRecDepth 20000 in
theorem openRecordCells_hold_the_record :
    validRecord (memReadBytes openRecordCells 0x0FF0100 128) = some (2, .opened) ∧
    validRecord (memReadBytes [] 0x0FF0100 128) = none :=
  ⟨(congrArg validRecord (memReadBytes_listed (recordBytes 2 .opened) 0x0FF0100)).trans (by decide +kernel), by decide +kernel⟩

theorem witness_of_read_backs_that_end_otherwise :
    ((openLogging .readBack 512 []).log.position = 512 ∧ (openLogging .readBack 512 []).log.nextSeq.toNat < 0xFFFFFFFE ∧
      (openLogging .readBack 512 []).log.lock = .ok) ∧
    ((ending (openLogging .retryReadBack 4 [])).session.state = .ending ∧
      (ending (openLogging .retryReadBack 4 [])).session.owner = some .hp0 ∧
      (ending (openLogging .retryReadBack 4 [])).log = (openLogging .retryReadBack 4 []).log ∧
      (ending (openLogging .retryReadBack 4 [])).hp0 = (openLogging .retryReadBack 4 []).hp0) := by decide +kernel

theorem witness_ReadBackDecidesTheAppend :
    (∀ stage ∈ [AppendStage.readBack, .retryReadBack], ∃ (s : State) (w : Append),
      s.log = (openLogging stage 3 openRecordCells).log ∧ s.log.append = some w ∧ w.stage = stage ∧
      s.flash.erase = none ∧ s.flash.readInFlight .log = some (0x0FF0100, 128) ∧
      validRecord (memReadBytes s.mem 0x0FF0100 128) = some (w.seq, .opened) ∧ s.session.state = .active ∧
      s.session.owner = some .hp0 ∧ (s.port .hp0).inFlight = some (.segmentErase 0x010000) ∧
      (s.entry (segOf 0x010000)).phase = .stable ∧ s.flash.slot (portClient .hp0) = .empty) ∧
    (∀ stage ∈ [AppendStage.readBack, .retryReadBack], ∃ (s : State) (w : Append), s.log = (openLogging stage 511 []).log ∧
      s.log.append = some w ∧ w.stage = stage ∧ s.log.lock = .ok ∧ s.log.position < 512 ∧
      s.flash.readInFlight .log = some (0x0FF0100, 128) ∧
      (∀ body, validRecord (memReadBytes s.mem 0x0FF0100 128) ≠ some (w.seq, body)) ∧ s.session.owner = some .hp0 ∧
      (s.port .hp0).state = .opBusy ∧ (s.port .hp0).inFlight = some (.segmentErase 0x010000)) := by
  refine ⟨fun stage _ => ⟨openLogging stage 3 openRecordCells, _, rfl, rfl, rfl, rfl, rfl, ?_, rfl, rfl, rfl,
    ?_, rfl⟩, fun stage _ => ⟨openLogging stage 511 [], _, rfl, rfl, rfl, rfl, Nat.lt_succ_self 511, rfl, ?_,
      rfl, rfl, rfl⟩⟩
  · rw [openLogging_mem]
    exact openRecordCells_hold_the_record.1
  · rw [State.entry, openLogging_map]
    exact owned_entries_stable.2
  · intro body h
    rw [openLogging_mem, openRecordCells_hold_the_record.2] at h
    cases h

/-- A compaction from area 0 into area 1 in a step. -/
def compacting (step : AreaStep) : State :=
  { accepting 512 4 with
    log :=
      { (accepting 512 4).log with append := some { stage := .compacting step, position := 512, seq := 4, retry := false } } }

/-- An initialisation of area 0 at a step. -/
def initialising (step : AreaStep) : State :=
  { atStart .init .running with log := { LogUnit.reset with initStep := some step } }

theorem witness_of_map_area_steps :
    (∀ step, ∃ w, (compacting step).log.append = some w ∧ w.stage = .compacting step ∧ (compacting step).log.lock = .ok ∧
      (compacting step).image.acceptance = some (.hp1, 0) ∧ (compacting step).image.state = .confirming ∧
      ((compacting step).port .hp1).state = .opBusy ∧ (compacting step).session.owner ≠ some .hp1) ∧
    (∀ step, (initialising step).log.append = none ∧ (initialising step).log.initStep = some step ∧
      (initialising step).log.lock = .ok ∧ (initialising step).map.entries.length = 255) ∧
    (∃ (s : State) (e : FlashErase), s.log = (initialising .erase).log ∧ s.flash.transfer = none ∧ s.flash.erase = some e ∧
      e.client = .log ∧ e.condition ≠ .suspended ∧ e.runTime < e.kind.limit) ∧
    (∀ step, (withTransfer .log (.program 0x0FF0000 [0]) 7 (initialising step)).log = (initialising step).log ∧
      (withTransfer .log (.program 0x0FF0000 [0]) 7 (initialising step)).flash.erase = none ∧
      (withTransfer .log (.program 0x0FF0000 [0]) 7 (initialising step)).flash.transfer =
        some { client := .log, access := .program 0x0FF0000 [0], runTime := 7 }) :=
  ⟨fun step => ⟨_, rfl, rfl, rfl, rfl, rfl, rfl, (by intro h; cases h)⟩, fun step => ⟨rfl, rfl, rfl, List.length_replicate ..⟩,
    ⟨withErase .log .block 0x0FF0000 5999 .suspending (initialising .erase), _, rfl, rfl, rfl, rfl, by decide, by decide⟩,
    fun step => ⟨rfl, rfl, rfl⟩⟩

theorem witness_MapAreaIsWrittenInOrder :
    (∀ step, (compacting step).log.queue = [.confirm 0] ∧ (compacting step).log.area = some .zero ∧
      (compacting step).log.generation = some 1 ∧
      ∃ w, (compacting step).log.append = some w ∧ w.stage = .compacting step) ∧
    (∃ e, (withErase .log .block 0x1FF0000 5999 .running (compacting .erase)).flash.erase = some e ∧ e.client = .log ∧
      e.condition ≠ .suspended ∧ e.runTime < e.kind.limit) ∧
    ((withTransfer .log (.program 0x1FF0000 [0]) 7 (compacting .header)).flash.transfer =
      some { client := .log, access := .program 0x1FF0000 [0], runTime := 7 }) ∧
    (∃ s : State, s.log.append = none ∧ s.log.initStep = some .base ∧ s.flash.erase = none ∧
      s.flash.transfer = some { client := .log, access := .program 0x0FF0080 [0], runTime := 7 }) :=
  ⟨fun step => ⟨rfl, rfl, rfl, _, rfl, rfl⟩, ⟨_, rfl, rfl, by decide, by decide⟩, rfl,
    ⟨withTransfer .log (.program 0x0FF0080 [0]) 7
      { atStart .init .running with log := { LogUnit.reset with initStep := some .base } }, rfl, rfl, rfl, rfl⟩⟩

/-! ### Witnesses: the switch -/

theorem witness_of_a_switch_at_start_up :
    ∀ cause, ∃ s : State, s.map.pinned = 0 ∧ s.map.entries.length = 255 ∧
      s.map.switch = some { requester := .imageState, flip := 1, endsEpoch := 0 } ∧ s.seq.phase ≠ .serving ∧
      s.image.rollback = some (.sequencer, cause) ∧ s.hp0.transfer = none ∧ s.hp1.transfer = none ∧
      s.flash.slotWork = .empty ∧ s.flash.erase = none :=
  fun cause =>
    ⟨{ asking .opened (some (.sequencer, cause)) (atStart .check .running) with map := switching.map }, rfl,
      List.length_replicate .., rfl, (by intro h; cases h), rfl, rfl, rfl, rfl, rfl⟩

theorem witness_SwitchTakesEffect :
    (∃ (s : State) (sm : HeaderSummary), s.map = { owned.map with switch := some { requester := .commitEngine, flip := 1, endsEpoch := 0 } } ∧
      s.map.pinned = 0 ∧ s.map.entries.length = 255 ∧ s.session.owner = some .hp0 ∧ s.commit.summary = some sm ∧
      (s.port .hp0).state = .commitBusy ∧ s.hp0.transfer = none ∧ s.hp1.transfer = none) ∧
    (∃ (s : State) (x : HostTransfer), s.map = switching.map ∧ s.map.pinned = 0 ∧ s.map.entries.length = 255 ∧
      s.seq.phase = .serving ∧
      s.session.lock = .rollback ∧ s.session.state = .nobody ∧ s.image.rollback = some (.port .hp0, .requested) ∧
      (s.port .hp0).state = .opBusy ∧ (s.port .hp0).transfer = none ∧ (s.port (otherPort .hp0)).transfer = some x ∧
      x.epoch = none ∧ x.ended = false) :=
  ⟨⟨{ closing .switch [] with
        map := { owned.map with switch := some { requester := .commitEngine, flip := 1, endsEpoch := 0 } } },
      _, rfl, rfl, by decide +kernel, rfl, rfl, rfl, rfl, rfl⟩,
    ⟨{ switching with
        hp1 :=
          { served.hp1 with
            state := .transfer
            transfer := some { next := 0, rule := .stable, epoch := none, buffer := [], arrived := 0, ended := false } } },
      _, rfl, rfl, by decide +kernel, rfl, rfl, rfl, rfl, rfl, rfl, rfl, rfl, rfl⟩⟩

end Sys2Proof.Tests
end

section
/-!
PROOF of O8. The bytes as they enter the CRC-32 are a function of the kind of the range and of the byte count at which
each one is passed (`enteringBytes`); the Check Unit's fold over a range is `crcBytes` of them (`foldl_take_crc`). In
parallel the reader's capture is cut at word 3, which is the header CRC field.
-/

namespace Sys2Proof.Machine

/-! ### The bytes that enter the CRC-32 (R52) -/

/-- R52: the bytes of a range as they enter the CRC-32, the first of them passed at byte count `count`. -/
def enteringBytes (kind : Option RangeKind) (count : Nat) (bs : List Byte) : List Byte :=
  bs.mapIdx fun i b => substituted kind (count + i) b

@[simp] theorem enteringBytes_nil (kind : Option RangeKind) (count : Nat) : enteringBytes kind count [] = [] := rfl

@[simp] theorem enteringBytes_cons (kind : Option RangeKind) (count : Nat) (b : Byte) (bs : List Byte) :
    enteringBytes kind count (b :: bs) = substituted kind count b :: enteringBytes kind (count + 1) bs := by
  simp only [enteringBytes, List.mapIdx_cons, Nat.add_zero, Nat.add_assoc, Nat.add_comm 1]

theorem enteringBytes_append (kind : Option RangeKind) (count : Nat) (xs ys : List Byte) :
    enteringBytes kind count (xs ++ ys) = enteringBytes kind count xs ++ enteringBytes kind (count + xs.length) ys := by
  simp only [enteringBytes, List.mapIdx_append, Nat.add_assoc, Nat.add_comm xs.length]

theorem substituted_inField {count : Nat} (h : 12 ≤ count ∧ count < 16) (b : Byte) :
    substituted (some .header) count b = 0 := if_pos ⟨rfl, h⟩

theorem substituted_outsideField {count : Nat} (h : count < 12 ∨ 16 ≤ count) (kind : Option RangeKind) (b : Byte) :
    substituted kind count b = b := if_neg (by omega)

theorem substituted_segment (count : Nat) (b : Byte) : substituted (some .segment) count b = b :=
  if_neg fun h => by cases h.1

theorem enteringBytes_eq_self {kind : Option RangeKind} {count : Nat} {bs : List Byte}
    (h : ∀ i < bs.length, ∀ b, substituted kind (count + i) b = b) : enteringBytes kind count bs = bs :=
  List.ext_getElem List.length_mapIdx fun i _ hi => by
    simp only [enteringBytes, List.getElem_mapIdx, h i hi]

/-- Over a whole header range exactly the header CRC field, bytes 12 to 15, enters as zero. -/
theorem enteringBytes_header {before field : List Byte} (hb : before.length = 12) (hf : field.length = 4)
    (after : List Byte) :
    enteringBytes (some .header) 0 (before ++ field ++ after) = before ++ [0x00, 0x00, 0x00, 0x00] ++ after := by
  have hbefore : enteringBytes (some .header) 0 before = before :=
    enteringBytes_eq_self fun i hi => substituted_outsideField (by omega) _
  have hfield : enteringBytes (some .header) 12 field = [0x00, 0x00, 0x00, 0x00] := by
    match field, hf with
    | [f0, f1, f2, f3], _ =>
      simp only [enteringBytes_cons, enteringBytes_nil, substituted_inField (count := 12) (by omega),
        substituted_inField (count := 12 + 1) (by omega), substituted_inField (count := 12 + 1 + 1) (by omega),
        substituted_inField (count := 12 + 1 + 1 + 1) (by omega)]
  have hafter : enteringBytes (some .header) 16 after = after :=
    enteringBytes_eq_self fun i _ => substituted_outsideField (by omega) _
  simp only [enteringBytes_append, List.length_append, hb, hf, hbefore, hfield, hafter, Nat.zero_add, Nat.reduceAdd]

/-! ### The Check Unit's running CRC (R51, R52) -/

/-- R51, R52: after a list of bytes the running CRC has taken exactly the bytes that entered. -/
theorem foldl_take_crc : ∀ (bs : List Byte) (c : CheckUnit),
    (bs.foldl CheckUnit.take c).crc = crcBytes c.crc (enteringBytes c.kind c.count bs)
  | [], _ => rfl
  | b :: t, c => by
    rw [enteringBytes_cons, List.foldl_cons, foldl_take_crc t (c.take b)]
    rfl

/-- The result of a whole range, from its request on, is the CRC-32 of the bytes that entered. -/
theorem crcFinish_foldl_take_start (client : CheckClient) (kind : RangeKind) (length : Nat) (bs : List Byte) :
    crcFinish ((bs.foldl CheckUnit.take (CheckUnit.start client kind length)).crc) =
      crc32 (enteringBytes (some kind) 0 bs) := by
  rw [foldl_take_crc]
  rfl

/-! ### The capture of the header CRC (R45) -/

/-- R45: whole words captured as two chunks are captured as one. -/
theorem captureWords_append (rest chunk : List Byte) (c : HeaderCapture) (k : Nat) (h : chunk.length % 4 = 0) :
    captureWords c k (chunk ++ rest) = captureWords (captureWords c k chunk) (k + chunk.length / 4) rest := by
  induction c, k, chunk using captureWords.induct with
  | case1 c k b0 b1 b2 b3 t ih =>
    simp only [List.length_cons] at h ⊢
    have hk : k + (t.length + 1 + 1 + 1 + 1) / 4 = k + 1 + t.length / 4 := by omega
    rw [hk]
    exact ih (by omega)
  | case2 chunk c k hshort =>
    match chunk, hshort, h with
    | [], _, _ => rfl
    | b0 :: b1 :: b2 :: b3 :: t, hshort, _ => exact (hshort b0 b1 b2 b3 t rfl).elim

theorem word_three_headerCrc (c : HeaderCapture) (w : Word32) : (c.word 3 w).headerCrc = w := rfl

theorem word_headerCrc_of_ne {k : Nat} (hk : k ≠ 3) (c : HeaderCapture) (w : Word32) :
    (c.word k w).headerCrc = c.headerCrc := by
  simp only [HeaderCapture.word, if_neg hk, apply_ite HeaderCapture.headerCrc, ite_self]

/-- The words after the header CRC field leave the captured header CRC as it is. -/
theorem captureWords_headerCrc_of_three_lt (bs : List Byte) (c : HeaderCapture) (k : Nat) (hk : 3 < k) :
    (captureWords c k bs).headerCrc = c.headerCrc := by
  induction c, k, bs using captureWords.induct with
  | case1 c k b0 b1 b2 b3 t ih =>
    rw [captureWords, ih (by omega), word_headerCrc_of_ne (by omega)]
  | case2 bs c k hshort => rw [captureWords]; exact hshort

/-- R45, Table 12.1: the header CRC captured is the four bytes at 0x00C, whatever stands before and after them. -/
theorem captureWords_headerCrc {before field : List Byte} (hb : before.length = 12) (hf : field.length = 4)
    (after : List Byte) (c : HeaderCapture) :
    (captureWords c 0 (before ++ field ++ after)).headerCrc = le32At field 0 := by
  match field, hf with
  | [f0, f1, f2, f3], _ =>
    rw [List.append_assoc, captureWords_append _ before _ _ (by omega), hb]
    calc (captureWords (captureWords c 0 before) 3 ([f0, f1, f2, f3] ++ after)).headerCrc
        _ = (captureWords ((captureWords c 0 before).word 3 (f3 ++ f2 ++ f1 ++ f0)) 4 after).headerCrc := rfl
        _ = f3 ++ f2 ++ f1 ++ f0 := by
          rw [captureWords_headerCrc_of_three_lt _ _ _ (by omega), word_three_headerCrc]

/-! ### The obligation -/

/-- Settles O8: the running CRC takes the entering bytes, which over a header range are the bytes with the header CRC field
as zero and over a segment range the bytes themselves; the capture reads that field at word 3. -/
theorem headerRangeTakesItsCrcFieldAsZero : Obligations.HeaderRangeTakesItsCrcFieldAsZero := by
  unfold Obligations.HeaderRangeTakesItsCrcFieldAsZero
  refine ⟨fun client before field after hb hf => ⟨?crc, fun _ computed => ?capture⟩, fun client bytes => ?segment⟩
  case crc => rw [crcFinish_foldl_take_start, enteringBytes_header hb hf]
  case capture => exact captureWords_headerCrc hb hf after _
  case segment =>
    rw [crcFinish_foldl_take_start, enteringBytes_eq_self fun i _ => substituted_segment _]

end Sys2Proof.Machine
end

section
/-!
PROOF of O45. The program of REVERT passes every port-level check and reaches `decideRevert` with the port waiting in OP_BUSY
(`otherProgram_of_arrive`). A refusal of a port that owns no session gives back that port alone (`giveResult_waiting`), and
R104's conditions do not look at the ports, so that they are those of the state before the request.
-/

namespace Sys2Proof.Machine

/-! ### A program of a port that owns no session (R101, R149, R152) -/

/-- R148, R152: a host port whose erase or program has been passed on. -/
def HostPort.waiting (q : HostPort) (f : InFlight) : HostPort :=
  { q with wel := false, state := .opBusy, inFlight := some f }

theorem passOn_clearWel (p : Port) (f : InFlight) (s : State) :
    passOn p f (updatePort p (fun q => { q with wel := false }) s) = s.setPort p ((s.port p).waiting f) := by
  simp only [passOn, updatePort, port_setPort, setPort_setPort, HostPort.waiting]

theorem ownsActive_of_not_owner {p : Port} {s : State} (h : s.session.owner ≠ some p) : ownsActive s p = false :=
  decide_eq_false fun hown => h hown.2

/-- R101, R149: a program in READY that passes the port-level checks is intercepted or refused as that of a port that owns no
session, with the port waiting for its result. -/
theorem otherProgram_of_arrive {p : Port} {a : LogicalAddr} {data : List Byte} {s : State} (hr : (s.port p).state = .ready)
    (hw : (s.port p).wel = true) (hu : updEnabled s.seq.straps.updSel p = true) (ho : s.session.owner ≠ some p)
    (hd : data ≠ []) (ha : segOf a < 255) (hpage : a.toNat % 256 + data.length ≤ 256) :
    arrive p (.pageProgram a data) s =
      otherProgram p a data (s.setPort p ((s.port p).waiting (.program a data))) := by
  have hown : ownsActive (s.setPort p ((s.port p).waiting (.program a data))) p = false :=
    ownsActive_of_not_owner ((setPort_session ..).symm ▸ ho)
  calc arrive p (.pageProgram a data) s
      _ = takeProgram p a data s := arrive_ready p _ s hr
      _ = takeWrite p a data.length (.program a data) (sessionProgram p a data) s :=
        if_neg (mt List.isEmpty_iff.mp hd)
      _ = sessionProgram p a data (s.setPort p ((s.port p).waiting (.program a data))) := by
        rw [takeWrite_passes p a data.length _ _ s hw ha hpage hu, passOn_clearWel]
      _ = otherProgram p a data (s.setPort p ((s.port p).waiting (.program a data))) := by
        rw [sessionProgram, hown]
        rfl

/-! ### Refusals of a port that owns no session (R23, R153) -/

/-- R35: the idle timer of a session is left to its owner. -/
theorem resumeTimer_of_not_owner {x : Session} {p : Port} (h : x.owner ≠ some p) : x.resumeTimer p = x :=
  if_neg fun hown => h hown.2

theorem giveResult_of_not_owner {p : Port} {s : State} (h : s.session.owner ≠ some p) (code : Code) (seg : BitVec 8) :
    giveResult p code seg s = s.setPort p ((s.port p).result code seg) := by
  rw [giveResult, resumeTimer_of_not_owner h]
  cases p <;> rfl

/-- R153, Table 9.3: a refusal of the request in flight sets REFUSED and no failure bit. -/
theorem result_waiting {code : Code} (hc : code.refuses = true) (q : HostPort) (f : InFlight) (seg : BitVec 8) :
    (q.waiting f).result code seg =
      { q with wel := false, refused := true, code := code, seg := seg, state := .ready, inFlight := none } := by
  have hne : code ≠ .opFailed := by
    rintro rfl
    cases hc
  simp only [HostPort.result, HostPort.outcome, HostPort.toReady, HostPort.waiting, hc, hne, decide_false, Bool.false_and,
    Bool.or_false, Bool.or_true]

/-- A refused program of a port that owns no session leaves everything but the port as before the request. -/
theorem giveResult_waiting {p : Port} {s : State} {code : Code} (hr : (s.port p).state = .ready)
    (ho : s.session.owner ≠ some p) (hc : code.refuses = true) (f : InFlight) (seg : BitVec 8) :
    giveResult p code seg (s.setPort p ((s.port p).waiting f)) =
      s.setPort p { s.port p with wel := false, refused := true, code := code, seg := seg, inFlight := none } := by
  rw [giveResult_of_not_owner ((setPort_session ..).symm ▸ ho), port_setPort, setPort_setPort, result_waiting hc, ← hr]

/-! ### REVERT (R104) -/

/-- R101: the program of REVERT to the acceptance word carries REVERT and no other control word. -/
theorem otherProgram_revert (p : Port) (s : State) :
    otherProgram p 0x000FF4 [0x22, 0x0B, 0xC3, 0x5A] s = decideRevert p s := by
  have hword : acceptanceWordOf 0x000FF4 [0x22, 0x0B, 0xC3, 0x5A] = some .revert := by decide
  rw [otherProgram, hword, if_neg (by decide), if_pos rfl]

/-- R104: what a REVERT that is taken leaves: the rollback of the port, its claim on the lock and the ROLLBACK record asked
for. -/
def revertTaken (p : Port) (s : State) : State :=
  { s with
    image := { s.image with rollback := some (.port p, .requested) }
    session := { s.session with lock := .rollback }
    log :=
      { s.log with queue := s.log.queue ++ [.rollback s.image.targetBitmap s.image.targetSerial .requested] } }

/-- The state that `decideRevert` makes, with the port set before it or after it. -/
theorem revertTaken_setPort (p : Port) (q : HostPort) (s : State) :
    askAppend (.rollback s.image.targetBitmap s.image.targetSerial .requested)
      (((s.setPort p q).setImage { s.image with rollback := some (.port p, .requested) }).setSession
        { s.session with lock := .rollback }) = (revertTaken p s).setPort p q := by
  cases p <;> rfl

/-- R104 in order, for a REVERT whose port waits for its result. -/
theorem decideRevert_waiting {p : Port} {s : State} (hr : (s.port p).state = .ready) (ho : s.session.owner ≠ some p)
    (f : InFlight) :
    let refused : Code → State := fun code =>
      s.setPort p { s.port p with wel := false, refused := true, code := code, seg := 0xFF, inFlight := none }
    decideRevert p (s.setPort p ((s.port p).waiting f)) =
      if s.log.lock ≠ .ok then refused .updatesLocked
      else if s.session.lock ≠ .free then refused .engineBusy
      else if s.image.targetValid = false then refused .noTarget
      else if s.image.state = .confirming ∨ s.image.acceptance ≠ none then refused .engineBusy
      else (revertTaken p s).setPort p ((s.port p).waiting f) := by
  have hrefused : ∀ code : Code, code.refuses = true →
      giveResult p code 0xFF (s.setPort p ((s.port p).waiting f)) =
        s.setPort p { s.port p with wel := false, refused := true, code := code, seg := 0xFF, inFlight := none } :=
    fun _ hc => giveResult_waiting hr ho hc f 0xFF
  simp only [decideRevert, setPort_log, setPort_session, setPort_image, hrefused .updatesLocked rfl,
    hrefused .engineBusy rfl, hrefused .noTarget rfl, revertTaken_setPort]

/-- Settles O45: the program reaches `decideRevert`, whose conditions are those of the state before it. -/
theorem revertIsDecidedInOrder : Obligations.RevertIsDecidedInOrder := by
  unfold Obligations.RevertIsDecidedInOrder
  intro p s hr hw hu ho refused
  calc exec (.revert p) s
      _ = .next (arrive p (.pageProgram 0x000FF4 [0x22, 0x0B, 0xC3, 0x5A]) s) := rfl
      _ = .next (decideRevert p
            (s.setPort p ((s.port p).waiting (.program 0x000FF4 [0x22, 0x0B, 0xC3, 0x5A])))) := by
        rw [otherProgram_of_arrive hr hw hu ho (by decide) (by decide) (by decide), otherProgram_revert]
      _ = _ := congrArg _ (decideRevert_waiting hr ho _)

end Sys2Proof.Machine
end

section
/-!
PROOF of O47. In READY the port answers with the identification bytes (`takeReady`); in the busy states the refusal PORT_BUSY
comes first (`refuseBusy_of_keeps_wel`) and the bytes read 0xFF after it. Either way the port alone changes.
-/

namespace Sys2Proof.Machine

/-! ### Refusals PORT_BUSY (R146, R148) -/

/-- Table 9.3: an outcome that refuses sets REFUSED and leaves the failure bits. -/
theorem outcome_of_refuses {code : Code} (hc : code.refuses = true) (q : HostPort) (seg : BitVec 8) :
    q.outcome code seg = { q with refused := true, code := code, seg := seg } := by
  have hne : code ≠ .opFailed := by
    rintro rfl
    cases hc
  simp only [HostPort.outcome, hc, hne, decide_false, Bool.false_and, Bool.or_false, Bool.or_true]

/-- R146, R148: the refusal of a request that is neither an erase nor a program leaves WEL as it is. -/
theorem refuseBusy_of_keeps_wel (p : Port) {r : HostRequest} (hr : clearsWel r = false) (s : State) :
    refuseBusy p r s =
      s.setPort p { s.port p with refused := true, code := .portBusy, seg := requestSeg r } := by
  have hrefuses : Code.portBusy.refuses = true := rfl
  simp only [refuseBusy, updatePort, outcome_of_refuses hrefuses, hr, Bool.not_false, Bool.and_true]

/-- R144, R146: a refused request whose host clocks out bytes reads 0xFF and changes its port alone. -/
theorem putOnes_refuseBusy (p : Port) (clocks : Nat) {r : HostRequest} (hr : clearsWel r = false) (s : State) :
    putOnes p clocks (refuseBusy p r s) =
      s.setPort p
        { s.port p with
          refused := true, code := .portBusy, seg := requestSeg r, dataOut := List.replicate clocks 0xFF } := by
  rw [refuseBusy_of_keeps_wel p hr]
  simp only [putOnes, putOut, updatePort, port_setPort, setPort_setPort]

/-! ### The obligation -/

/-- Settles O47: READY answers with the identification bytes, a busy port with a refusal and 0xFF. -/
theorem identReadReturnsTheFixedBytes : Obligations.IdentReadReturnsTheFixedBytes := by
  unfold Obligations.IdentReadReturnsTheFixedBytes
  refine fun p clocks s => ⟨fun hready => ?ready, fun hbusy => ?busy⟩
  case ready =>
    calc exec (.identRead p clocks) s
        _ = .next (arrive p (.identRead clocks) s) := exec_requestCommand p (.identRead clocks) s
        _ = .next (takeReady p (.identRead clocks) s) := by rw [arrive_ready p _ s hready]
        _ = .next (putOut p (clockedOut Config.identBytes clocks) s) := rfl
        _ = _ := rfl
  case busy =>
    calc exec (.identRead p clocks) s
        _ = .next (arrive p (.identRead clocks) s) := exec_requestCommand p (.identRead clocks) s
        _ = .next (takeBusy p (.identRead clocks) s) := by rw [arrive_busy p _ s hbusy]
        _ = .next (putOnes p clocks (refuseBusy p (.identRead clocks) s)) := rfl
        _ = _ := congrArg _ (putOnes_refuseBusy p clocks rfl s)

end Sys2Proof.Machine
end

section
/-!
PROOF of O10. The session field is read off the update lock, one equation for each of its values. In SR2 the fields above it
are shifted left by two or more, so that modulo 4 only its code is left (`sr2_mod_four`).
-/

namespace Sys2Proof.Machine

/-! ### The session field for each value of the update lock (R166) -/

theorem sessionField_of_closing {x : Session} (hl : x.lock = .session) (hc : x.state = .closing) (p : Port) :
    sessionField x p = .commit := by simp only [sessionField, hl, hc, if_true]

theorem sessionField_of_not_closing {x : Session} (hl : x.lock = .session) (hc : x.state ≠ .closing) (p : Port) :
    sessionField x p = if x.owner = some p then .own else .other := by simp only [sessionField, hl, hc, if_false]

theorem sessionField_of_rollback {x : Session} (hl : x.lock = .rollback) (p : Port) : sessionField x p = .other := by
  simp only [sessionField, hl]

theorem sessionField_of_free {x : Session} (hl : x.lock = .free) (p : Port) : sessionField x p = .nobody := by
  simp only [sessionField, hl]

/-- R166: a lock that is taken shows on both ports, in every session state and for either owner. -/
theorem sessionField_eq_nobody_iff (x : Session) (p : Port) : sessionField x p = .nobody ↔ x.lock = .free := by
  refine ⟨fun h => ?_, fun hl => sessionField_of_free hl p⟩
  cases hl : x.lock with
  | free => rfl
  | rollback => cases (sessionField_of_rollback hl p).symm.trans h
  | session =>
    by_cases hc : x.state = .closing
    · cases (sessionField_of_closing hl hc p).symm.trans h
    · rw [sessionField_of_not_closing hl hc] at h
      split at h <;> cases h

/-! ### Bits 0 and 1 of SR2 (Table 12.6) -/

theorem shiftLeft_toNat_mod_four (b : Byte) {n : Nat} (hn : 2 ≤ n) : (b <<< n).toNat % 4 = 0 := by
  have hdvd : 4 ∣ b.toNat <<< n := by
    rw [Nat.shiftLeft_eq]
    exact Nat.dvd_mul_left_of_dvd (Nat.pow_dvd_pow 2 hn) b.toNat
  rw [BitVec.toNat_shiftLeft, Nat.mod_mod_of_dvd _ (by decide), Nat.mod_eq_zero_of_dvd hdvd]

theorem or_toNat_mod_four (a b : Byte) (hb : b.toNat % 4 = 0) : (a ||| b).toNat % 4 = a.toNat % 4 := by
  rw [BitVec.toNat_or, Nat.or_mod_two_pow (n := 2), hb, Nat.or_zero]

theorem sessionField_code_lt_four (f : SessionField) : f.code.toNat < 4 := by
  cases f <;> decide

/-- R166, Table 12.6: the image state, TARGET_VALID and IMAGE_OK stand above the session field. -/
theorem sr2_mod_four (s : State) (p : Port) : (s.sr2 p).toNat % 4 = (sessionField s.session p).code.toNat := by
  rw [State.sr2, or_toNat_mod_four _ (bitOf _ 5) (shiftLeft_toNat_mod_four _ (by omega)),
    or_toNat_mod_four _ (bitOf _ 4) (shiftLeft_toNat_mod_four _ (by omega)),
    or_toNat_mod_four _ (s.image.state.code <<< 2) (shiftLeft_toNat_mod_four _ (by omega)),
    Nat.mod_eq_of_lt (sessionField_code_lt_four _)]

/-! ### The obligation -/

/-- Settles O10: the field has one equation for each value of the lock, and SR2, the second byte of the record, is that field
modulo 4. -/
theorem sessionFieldFollowsTheLock : Obligations.SessionFieldFollowsTheLock := by
  unfold Obligations.SessionFieldFollowsTheLock
  refine ⟨fun x p => ⟨fun hl hc => ?closing, fun hl hc => ?other, fun hl => ?rollback, ?free⟩,
    fun s p => ⟨?length, ?bits⟩⟩
  case closing => exact sessionField_of_closing hl hc p
  case other => exact sessionField_of_not_closing hl hc p
  case rollback => exact sessionField_of_rollback hl p
  case free => exact sessionField_eq_nobody_iff x p
  case length => rfl
  case bits => exact sr2_mod_four s p

end Sys2Proof.Machine
end

section
/-!
PROOF layer: what a command can do. Every command but PART_RESET is a sequence of atomic updates (`Change`), in which at most
one switch takes effect or one recovered summary is handed over (`Jump`), and nothing but bookkeeping comes before that
(`Calm`). The statements about what every step keeps are inductions over these updates.
-/

namespace Sys2Proof.Machine

/-! ### The atomic updates -/

/-- The part of `HostPort.sound` that does not speak of held requests (Tables 9.1, 9.2). -/
def HostPort.formed (q : HostPort) : Prop :=
  (q.transfer.isSome = true ↔ q.state = .transfer) ∧ (q.inFlight.isSome = true ↔ q.state = .opBusy) ∧
    (∀ f, q.inFlight = some f → segOf f.addr < Config.mappedSegments) ∧
    (∀ t, q.transfer = some t → t.epoch = none ∨ t.ended = false)

/-- The part of `HostPort.sound` that speaks of held requests (R124, R151). -/
def HostPort.heldFits (q : HostPort) : Prop :=
  q.held = [] ∨ q.state = .held ∨ ∃ t, q.transfer = some t ∧ t.ended = true

theorem HostPort.sound_iff (q : HostPort) : q.sound = true ↔ q.formed ∧ q.heldFits := by
  unfold HostPort.sound HostPort.formed HostPort.heldFits
  cases hf : q.inFlight <;> cases ht : q.transfer <;>
    simp [and_assoc, or_assoc, List.isEmpty_iff, Option.isNone_iff_eq_none]

/-- An update of a port that leaves its soundness, whether it is pinned, and whether it is HELD. -/
structure PortKept (q q' : HostPort) : Prop where
  formed : q.formed → q'.formed ∧ q'.pins = q.pins
  fits : q.formed → q.heldFits → q'.heldFits
  held : q.state = .held → q.transfer = none → q'.state = .held ∧ q'.transfer = none
  released : q.state ≠ .held → q'.state ≠ .held

/-- An update of the map entries that leaves their banks and their soundness. -/
structure EntriesKept (es es' : List MapEntry) : Prop where
  banks : es'.map MapEntry.bank = es.map MapEntry.bank
  sound : (∀ e ∈ es, e.sound = true) → ∀ e ∈ es', e.sound = true

/-- An update of the Log Unit that leaves its lock state and its soundness and starts neither a replay nor an
initialisation. -/
structure LogKept (l l' : LogUnit) : Prop where
  lock : l'.lock = l.lock
  replay : l.replay = none → l'.replay = none
  initStep : l.initStep = none → l'.initStep = none
  sound : l.sound = true → l'.sound = true

/-- R12, R77: where a write may lie: wholly in a shadow, or wholly in a map area for the Log Unit. -/
def State.WriteInPlace (s : State) (client : Client) (a : Access) : Prop :=
  (client ≠ .log ∧ ∃ seg off, seg < 255 ∧ a.addr = physAddr (s.entry seg).bank.other seg off ∧
    off + a.length ≤ 0x10000 ∧ (∀ x, a = .blockErase x → off = 0) ∧ (∀ x, a = .sectorErase x → off % 0x1000 = 0) ∧
    (∀ x data, a = .program x data → off % 0x100 + data.length ≤ 0x100)) ∨
  (client = .log ∧ ∃ area : Area, areaBase area ≤ a.addr ∧ a.addr + a.length ≤ areaBase area + 0x10000)

/-- What the clients of the arbiter rely on when they place a write. -/
structure State.WritersSound (s : State) : Prop where
  hp0 : s.hp0.formed
  hp1 : s.hp1.formed
  commit : s.commit.sound = true
  log : s.log.sound = true

/-- The READ of the WORK client in flight reads no more than a page. -/
def State.shortRead (s : State) : Prop := ∀ x n, s.flash.readInFlight .work = some (x, n) → n ≤ 256

/-- One atomic update. `short` says that a page read for a copy is no longer than a page. -/
inductive Change (short : Prop) (s : State) : State → Prop
  | port (p : Port) (q : HostPort) : PortKept (s.port p) q → Change short s (s.setPort p q)
  | pin (p : Port) (t : HostTransfer) : (s.port p).transfer = some t → t.epoch = none → t.ended = false →
      Change short s
        { s.setPort p { s.port p with transfer := some { t with epoch := some s.map.epoch } } with
          map := { s.map with pinned := s.map.pinned + 1 } }
  | unpin (p : Port) (t : HostTransfer) (q : HostPort) : (s.port p).transfer = some t → t.ended = false →
      q = { s.port p with transfer := some { t with ended := true, buffer := [], epoch := none } } ∨
        q = { s.port p with transfer := none, state := .ready } →
      Change short s ((unpin t s).setPort p q)
  | mem (m : List Host.Cell) (o : Option Leftover) : (Memory.wf s.mem = true → Memory.wf m = true) →
      Change short s { s with mem := m, leftover := o }
  | entries (es : List MapEntry) : EntriesKept s.map.entries es → Change short s (s.setEntries es)
  | switchAsked (sw : PendingSwitch) : Change short s { s with map := { s.map with switch := some sw } }
  | session (x : Session) : Change short s (s.setSession x)
  | commit (c : CommitRecord) : (s.commit.sound = true → c.sound = true) → Change short s (s.setCommit c)
  | check (c : CheckUnit) (r : Option Reader) : Change short s (s.setCheck c r)
  | log (l : LogUnit) : LogKept s.log l → Change short s (s.setLog l)
  | logFail : Change short s (logFail s)
  | logCorrupt : Change short s (logCorrupt s)
  | image (i : ImageUnit) : i.serial = s.image.serial → i.imageOk = s.image.imageOk → Change short s (s.setImage i)
  | seq (q : Sequencer) : q.straps = s.seq.straps → Change short s (s.setSeq q)
  | fault (m : FaultMember) : m ≠ .logFault → m ≠ .logCorrupt → Change short s (raiseFault m s)
  | place (c : Client) (a : Access) : (short → s.WritersSound → a.isRead = true ∨ s.WriteInPlace c a) →
      Change short s (place c a s)
  | withdraw (p : Port) : Change short s (s.setFlash (s.flash.withdraw (portClient p)))
  | grant (c : Client) (a : Access) : s.flash.choice = some (c, a) → Change short s (s.setFlash (s.flash.grant c a))
  | endRead (c : Client) (a n : Nat) : s.flash.readInFlight c = some (a, n) → Change short s (endRead c a n s)
  | look : Change short s (lookAfterRead s)
  | endProgram (c : Client) (a : Nat) (data : List Byte) (left : Remains) :
      s.flash.programInFlight = some (c, a, data) → Change short s (finishProgram c a data left s)
  | endErase (e : FlashErase) (left : Remains) : s.flash.eraseRunning = some e → Change short s (finishErase e left s)
  | programTimeout (t : FlashTransfer) (a : Nat) (data : List Byte) (left : Remains) :
      s.flash.transfer = some t → t.access = .program a data →
      Change short s (startFlashReset (finishProgram t.client a data left s))
  | eraseTimeout (e : FlashErase) (left : Remains) : s.flash.transfer = none → s.flash.erase = some e →
      Change short s (startFlashReset (finishErase e left s))
  | flashReset : Change short s (s.setFlash { s.flash with resetting := false })
  | suspended (e : FlashErase) : s.flash.erase = some e → e.condition = .suspending →
      Change short s
        (s.setFlash
          { s.flash with erase := some { e with condition := .suspended, suspends := e.suspends + 1 } }.settle)

/-- Any number of atomic updates. -/
inductive Quiet (short : Prop) (s : State) : State → Prop
  | refl : Quiet short s s
  | tail {t u : State} : Quiet short s t → Change short t u → Quiet short s u

theorem Quiet.trans {short : Prop} {s t u : State} (h : Quiet short s t) (g : Quiet short t u) : Quiet short s u := by
  induction g with
  | refl => exact h
  | tail _ hc ih => exact ih.tail hc

theorem Change.quiet {short : Prop} {s t : State} (h : Change short s t) : Quiet short s t := .tail .refl h

/-- Updates that keep the phase and place nothing. -/
structure Calm (short : Prop) (s t : State) : Prop where
  quiet : Quiet short s t
  phase : t.seq.phase = s.seq.phase
  slots : ∀ c a, t.flash.slot c = .pending a → s.flash.slot c = .pending a

/-- A switch takes effect with its image (R17), or a recovered summary is handed over (R94 to R96). -/
inductive Jump (s : State) : State → Prop
  | switch (sw : PendingSwitch) (i : ImageUnit) : (s.seq.phase = .serving → i.imageOk = true) →
      Jump s
        { s with
          map := { s.map with entries := flipEntries sw s.map.entries, epoch := s.map.epoch + 1, switch := none }
          image := i
          faults := s.faults.afterSwitch }
  | handOver (sm : LogSummary) : s.log.replay ≠ none ∨ s.log.initStep ≠ none → Jump s (handOver sm s)

/-- Updates with at most one jump among them. -/
inductive Moves (short : Prop) (s t : State) : Prop
  | quiet : Quiet short s t → Moves short s t
  | jump (a b : State) : Calm short s a → Jump a b → Quiet short b t → Moves short s t

section
variable {short : Prop} {s t u : State}

theorem Calm.refl : Calm short s s := ⟨.refl, rfl, fun _ _ h => h⟩

theorem Calm.trans (h : Calm short s t) (g : Calm short t u) : Calm short s u :=
  ⟨h.quiet.trans g.quiet, g.phase.trans h.phase, fun c a x => h.slots c a (g.slots c a x)⟩

theorem Calm.moves (h : Calm short s t) (g : Moves short t u) : Moves short s u := by
  cases g with
  | quiet q => exact .quiet (h.quiet.trans q)
  | jump a b hc hj hq => exact .jump a b (h.trans hc) hj hq

theorem Moves.then (h : Moves short s t) (g : Quiet short t u) : Moves short s u := by
  cases h with
  | quiet q => exact .quiet (q.trans g)
  | jump a b hc hj hq => exact .jump a b hc hj (hq.trans g)

/-- An update that leaves the phase and the Flash Port is calm. -/
theorem Change.calm (h : Change short s t) (hp : t.seq.phase = s.seq.phase) (hf : t.flash = s.flash) : Calm short s t :=
  ⟨h.quiet, hp, fun _ _ x => hf ▸ x⟩

end

end Sys2Proof.Machine
end

section
/-!
PROOF layer: each shared operation of the ports, the Session Controller, the Commit Engine, the Image State unit and the Log
Unit as a sequence of atomic updates, one lemma for each operation.
-/

namespace Sys2Proof.Machine

/-! ### Updates of a port -/

theorem PortKept.of_same {q q' : HostPort} (hs : q'.state = q.state) (ht : q'.transfer = q.transfer)
    (hi : q'.inFlight = q.inFlight) (hh : q'.held = q.held) : PortKept q q' := by
  refine ⟨fun h => ?_, fun _ h => ?_, fun h h' => ?_, fun h => ?_⟩
  · simpa only [HostPort.formed, HostPort.pins, hs, ht, hi, and_true] using h
  · simpa only [HostPort.heldFits, hs, ht, hh] using h
  · exact ⟨hs ▸ h, ht ▸ h'⟩
  · exact hs ▸ h

/-- A transfer that is still read may get other bytes and another address. -/
theorem PortKept.of_transfer {q q' : HostPort} {t t' : HostTransfer} (hq : q.transfer = some t)
    (hq' : q'.transfer = some t') (he : t'.epoch = t.epoch) (hend : t'.ended = t.ended) (hs : q'.state = q.state)
    (hi : q'.inFlight = q.inFlight) (hh : q'.held = q.held) : PortKept q q' := by
  refine ⟨fun h => ?_, fun _ h => ?_, fun _ h' => ?_, fun h => ?_⟩
  · simpa [HostPort.formed, HostPort.pins, hs, hi, hq, hq', he, hend] using h
  · simpa [HostPort.heldFits, hs, hh, hq, hq', hend] using h
  · rw [hq] at h'
    cases h'
  · exact hs ▸ h

theorem PortKept.outcome (q : HostPort) (code : Code) (seg : BitVec 8) : PortKept q (q.outcome code seg) :=
  .of_same rfl rfl rfl rfl

/-- From OP_BUSY or COMMIT_BUSY a port leaves with no request in flight. -/
theorem PortKept.of_busy {q q' : HostPort} (h : q.state = .opBusy ∨ q.state = .commitBusy)
    (h' : q'.state = .ready ∨ q'.state = .commitBusy) (ht : q'.transfer = q.transfer) (hi : q'.inFlight = none)
    (hh : q'.held = q.held) : PortKept q q' := by
  have htr : q.formed → q.transfer = none := fun hf => by
    have := hf.1
    rcases h with h | h <;> simpa [h] using this
  refine ⟨fun hf => ?_, fun hf hfit => ?_, fun hq => ?_, fun _ => ?_⟩
  · have := htr hf
    rcases h' with h' | h' <;> simp [HostPort.formed, HostPort.pins, h', hi, ht, this]
  · have := htr hf
    have hne : q.state ≠ .held := by rcases h with h | h <;> simp [h]
    simp only [HostPort.heldFits, this, hne, reduceCtorEq, false_and, exists_false, or_false] at hfit
    exact .inl (hh.trans hfit)
  · rcases h with h | h <;> simp [h] at hq
  · rcases h' with h' | h' <;> simp [h']

theorem PortKept.toReady (q : HostPort) : PortKept q q.toReady := by
  unfold HostPort.toReady
  cases h : q.state with
  | opBusy => exact .of_busy (.inl h) (.inl rfl) rfl rfl rfl
  | commitBusy => exact .of_busy (.inr h) (.inl rfl) rfl rfl rfl
  | held => exact .of_same rfl rfl rfl rfl
  | ready => exact .of_same rfl rfl rfl rfl
  | transfer => exact .of_same rfl rfl rfl rfl

theorem PortKept.trans {q q' q'' : HostPort} (h : PortKept q q') (g : PortKept q' q'') : PortKept q q'' :=
  ⟨fun hf => ⟨(g.formed (h.formed hf).1).1, (g.formed (h.formed hf).1).2.trans (h.formed hf).2⟩,
    fun hf hfit => g.fits (h.formed hf).1 (h.fits hf hfit), fun hs ht => (h.held hs ht).elim g.held,
    fun hs => g.released (h.released hs)⟩

theorem PortKept.result (q : HostPort) (code : Code) (seg : BitVec 8) : PortKept q (q.result code seg) :=
  (PortKept.outcome q code seg).trans (.toReady _)

/-- From READY a port may start a transfer or pass a request on. -/
theorem PortKept.of_ready {q q' : HostPort} (h : q.state = .ready) (hh : q'.held = q.held)
    (hf : q.transfer = none → q.inFlight = none → q'.formed ∧ q'.pins = 0) (hr : q'.state ≠ .held) : PortKept q q' := by
  have hnone : q.formed → q.transfer = none ∧ q.inFlight = none := fun hq => by
    have h1 := hq.1
    have h2 := hq.2.1
    exact ⟨by simpa [h] using h1, by simpa [h] using h2⟩
  refine ⟨fun hq => ?_, fun hq hfit => ?_, fun hq => ?_, fun _ => hr⟩
  · obtain ⟨ht, hi⟩ := hnone hq
    refine ⟨(hf ht hi).1, (hf ht hi).2.trans ?_⟩
    simp [HostPort.pins, ht]
  · simp only [HostPort.heldFits, (hnone hq).1, h, reduceCtorEq, false_and, exists_false, or_false] at hfit
    exact .inl (hh.trans hfit)
  · simp [h] at hq

section
variable {short : Prop}

theorem updatePort_quiet {p : Port} {f : HostPort → HostPort} {s : State} (h : PortKept (s.port p) (f (s.port p))) :
    Quiet short s (updatePort p f s) := (Change.port p _ h).quiet

theorem giveResult_quiet (p : Port) (code : Code) (seg : BitVec 8) (s : State) :
    Quiet short s (giveResult p code seg s) :=
  (updatePort_quiet (.result _ code seg)).trans (Change.session _).quiet

/-- A READ may be placed by any client. -/
theorem placeRead_quiet (c : Client) (a n : Nat) (s : State) : Quiet short s (place c (.read a n) s) :=
  (Change.place c _ fun _ _ => .inl rfl).quiet

theorem formChunk_quiet (p : Port) (s : State) : Quiet short s (formChunk p s) := by
  unfold formChunk
  cases ht : (s.port p).transfer with
  | none => exact .refl
  | some t =>
    dsimp only
    split
    · exact placeRead_quiet _ _ _ s
    · exact updatePort_quiet (.of_transfer ht rfl rfl rfl rfl rfl rfl)

theorem firstChunk_quiet (p : Port) (s : State) : Quiet short s (firstChunk p s) := by
  unfold firstChunk
  cases ht : (s.port p).transfer with
  | none => exact .refl
  | some t =>
    dsimp only
    split
    case isTrue h => exact (Change.pin p t ht h.1 h.2.1).quiet.trans (formChunk_quiet p _)
    case isFalse => exact .refl

theorem takeArriving_quiet (p : Port) (k : Nat) (s : State) : Quiet short s (takeArriving p k s) := by
  unfold takeArriving
  cases ht : (s.port p).transfer with
  | none => exact .refl
  | some t =>
    dsimp only
    split
    · exact .refl
    · exact updatePort_quiet (.of_transfer ht rfl rfl rfl rfl rfl rfl)

theorem deliver_quiet (p : Port) (n : Nat) (s : State) : Quiet short s (deliver p n s) := by
  unfold deliver
  cases ht : (s.port p).transfer with
  | none => exact .refl
  | some t =>
    dsimp only
    split
    · exact .refl
    · exact updatePort_quiet (.of_transfer ht rfl rfl rfl rfl rfl rfl)

theorem clockBytes_quiet (p : Port) (x : Clocking) (s : State) : Quiet short s (clockBytes p x s) :=
  (takeArriving_quiet p _ s).trans (deliver_quiet p _ _)

theorem unpin_port (t : HostTransfer) (s : State) (p : Port) : (unpin t s).port p = s.port p := by
  unfold unpin
  split <;> cases p <;> rfl

theorem endTransfer_quiet (p : Port) (s : State) : Quiet short s (endTransfer p s) := by
  unfold endTransfer
  cases ht : (s.port p).transfer with
  | none => exact .refl
  | some t =>
    dsimp only
    split
    case isTrue => exact .refl
    case isFalse hend =>
      refine (Change.withdraw p).quiet.trans ?_
      have ht' : ((s.setFlash (s.flash.withdraw (portClient p))).port p).transfer = some t := by simpa using ht
      split
      · exact (Change.unpin p t _ ht' (by simpa using hend) (.inl (by rw [unpin_port]))).quiet
      · exact (Change.unpin p t _ ht' (by simpa using hend) (.inr (by rw [unpin_port]))).quiet

/-! ### Updates of the map entries -/

theorem EntriesKept.refl (es : List MapEntry) : EntriesKept es es := ⟨rfl, id⟩

theorem EntriesKept.map {f : MapEntry → MapEntry} (hb : ∀ e, (f e).bank = e.bank)
    (hs : ∀ e, e.sound = true → (f e).sound = true) (es : List MapEntry) : EntriesKept es (es.map f) := by
  refine ⟨by simp [Function.comp_def, hb], fun h e he => ?_⟩
  obtain ⟨x, hx, rfl⟩ := List.mem_map.mp he
  exact hs x (h x hx)

theorem EntriesKept.set {f : MapEntry → MapEntry} (hb : ∀ e, (f e).bank = e.bank)
    (hs : ∀ e, e.sound = true → (f e).sound = true) (es : List MapEntry) (seg : Nat) :
    EntriesKept es (es.set seg (f (entryOf es seg))) := by
  by_cases hlt : seg < es.length
  · have he : entryOf es seg = es[seg] := by simp [entryOf, hlt]
    refine ⟨?_, fun h e hmem => ?_⟩
    · rw [List.map_set, hb, he, ← List.getElem_map MapEntry.bank (h := by simpa using hlt), List.set_getElem_self]
    · rcases List.mem_or_eq_of_mem_set hmem with hmem | rfl
      · exact h e hmem
      · exact hs _ (h _ (he ▸ List.getElem_mem hlt))
  · rw [List.set_eq_of_length_le (by omega)]
    exact .refl es

/-- An update of one entry that leaves its bank and its soundness. -/
structure EntryUpdate (f : MapEntry → MapEntry) : Prop where
  bank : ∀ e, (f e).bank = e.bank
  sound : ∀ e, e.sound = true → (f e).sound = true

theorem updateEntry_quiet {f : MapEntry → MapEntry} (h : EntryUpdate f) (seg : Nat) (s : State) :
    Quiet short s (updateEntry seg f s) := (Change.entries _ (.set h.bank h.sound _ seg)).quiet

theorem openRequest_entryUpdate (sectors : SectorSet) : EntryUpdate (fun e => e.openRequest sectors) := by
  refine ⟨fun e => ?_, fun e h => ?_⟩ <;> dsimp only [MapEntry.openRequest] <;> split
  · rfl
  · rfl
  · simp [MapEntry.sound]
  · exact h

theorem openDone_entryUpdate : EntryUpdate MapEntry.openDone :=
  ⟨fun _ => rfl, fun _ _ => by simp [MapEntry.openDone, MapEntry.sound]⟩

theorem toStable_entryUpdate : EntryUpdate MapEntry.toStable :=
  ⟨fun _ => rfl, fun _ _ => by simp [MapEntry.toStable, MapEntry.sound]⟩

theorem addSector_entryUpdate (sector : Nat) : EntryUpdate (fun e => e.addSector sector) := by
  refine ⟨fun e => ?_, fun e h => ?_⟩ <;> dsimp only [MapEntry.addSector] <;> split
  · rfl
  · rfl
  · next ho => simpa [MapEntry.sound, ho] using h
  · exact h

theorem markDamaged_entryUpdate : EntryUpdate MapEntry.markDamaged := by
  refine ⟨fun e => ?_, fun e h => ?_⟩ <;> dsimp only [MapEntry.markDamaged] <;> split
  · rfl
  · rfl
  · next ho => simpa [MapEntry.sound, ho] using h
  · exact h

theorem fullErase_entryUpdate : EntryUpdate MapEntry.fullErase := by
  refine ⟨fun e => ?_, fun e h => ?_⟩ <;> dsimp only [MapEntry.fullErase] <;> split
  · rfl
  · rfl
  · next ho => simpa [MapEntry.sound, ho] using h
  · exact h

theorem beginFill_entryUpdate : EntryUpdate MapEntry.beginFill := by
  refine ⟨fun e => ?_, fun e h => ?_⟩ <;> dsimp only [MapEntry.beginFill] <;> split
  · rfl
  · rfl
  · next ho => by_cases hm : e.fresh = allSectors <;> simpa [MapEntry.sound, ho, hm] using h
  · exact h

theorem endFill_entryUpdate : EntryUpdate MapEntry.endFill := by
  refine ⟨fun e => ?_, fun e h => ?_⟩ <;> dsimp only [MapEntry.endFill] <;> split
  · rfl
  · rfl
  · next ho => simpa [MapEntry.sound, ho] using h
  · exact h

theorem abandoned_entryUpdate : EntryUpdate MapEntry.abandoned := by
  refine ⟨fun e => ?_, fun e h => ?_⟩ <;> cases hp : e.phase <;>
    simp_all [MapEntry.abandoned, MapEntry.toStable, MapEntry.sound]

end

end Sys2Proof.Machine
end

section
/-!
PROOF layer, continued: the operations of the Session Controller and of the Commit Engine as sequences of atomic updates.
-/

namespace Sys2Proof.Machine

/-! ### Writes into a shadow (R12) -/

theorem entryOf_bank (es : List MapEntry) (seg : Nat) : (entryOf es seg).bank = (es.map MapEntry.bank).getD seg .a := by
  simp only [entryOf, List.getD_eq_getElem?_getD, List.getElem?_map]
  cases es[seg]? <;> rfl

theorem EntriesKept.bank {es es' : List MapEntry} (h : EntriesKept es es') (seg : Nat) :
    (entryOf es' seg).bank = (entryOf es seg).bank := by rw [entryOf_bank, entryOf_bank, h.banks]

/-- R12: a write at an offset of the shadow of a mapped segment, within the segment, and on its own boundary. -/
theorem writeInPlace_shadow {s : State} {es : List MapEntry} {c : Client} {a : Access} {seg off : Nat} (hc : c ≠ .log)
    (hb : (entryOf es seg).bank = (s.entry seg).bank) (hseg : seg < 255) (ha : a.addr = shadowAddr es seg off)
    (hl : off + a.length ≤ 0x10000) (hblock : ∀ x, a = .blockErase x → off = 0)
    (hsector : ∀ x, a = .sectorErase x → off % 0x1000 = 0)
    (hprogram : ∀ x data, a = .program x data → off % 0x100 + data.length ≤ 0x100) : s.WriteInPlace c a :=
  .inl ⟨hc, seg, off, hseg, by rw [ha, shadowAddr, hb], hl, hblock, hsector, hprogram⟩

theorem portClient_ne_log (p : Port) : portClient p ≠ .log := by cases p <;> simp [portClient]

theorem sectorOf_lt (a : LogicalAddr) : sectorOf a < 16 := by
  have : offsetOf a < 0x10000 := Nat.mod_lt _ (by decide)
  simp only [sectorOf, sectorOfOffset, Config.sectorSize]
  omega

section
variable {short : Prop}

/-- R12, R24, R28: the erase of a whole shadow. -/
theorem placeBlockErase_quiet {p : Port} {seg : Nat} {s : State} {es : List MapEntry}
    (hb : (entryOf es seg).bank = (s.entry seg).bank) (hseg : s.WritersSound → seg < 255) :
    Quiet short s (place (portClient p) (.blockErase (shadowAddr es seg 0)) s) :=
  (Change.place _ _ fun _ hs =>
    .inr (writeInPlace_shadow (portClient_ne_log p) hb (hseg hs) rfl (by simp [Access.length, Config.segmentSize])
      (fun _ _ => rfl) (by simp) (by simp))).quiet

/-- R12, R27: the erase of a sector of a shadow. -/
theorem placeSectorErase_quiet {p : Port} {seg sector : Nat} {s : State} (hseg : s.WritersSound → seg < 255)
    (hsec : sector < 16) :
    Quiet short s
      (place (portClient p) (.sectorErase (shadowAddr s.map.entries seg (sector * Config.sectorSize))) s) :=
  (Change.place _ _ fun _ hs =>
    .inr (writeInPlace_shadow (portClient_ne_log p) rfl (hseg hs) rfl
      (by simp only [Access.length, Config.sectorSize]; omega) (by simp)
      (fun _ _ => by simp only [Config.sectorSize]; omega) (by simp))).quiet

/-- What the writers rely on, after an update that keeps the ports, the commit and the Log Unit. -/
theorem State.WritersSound.congr {s t : State} (h : t.WritersSound) (h0 : t.hp0 = s.hp0) (h1 : t.hp1 = s.hp1)
    (hc : t.commit = s.commit) (hl : t.log = s.log) : s.WritersSound :=
  ⟨h0 ▸ h.hp0, h1 ▸ h.hp1, hc ▸ h.commit, hl ▸ h.log⟩

/-! ### The Session Controller -/

theorem loadTimer_quiet (s : State) : Quiet short s (loadTimer s) := (Change.session _).quiet

theorem LogKept.queue (l : LogUnit) (q : List RecordBody) : LogKept l { l with queue := q } := ⟨rfl, id, id, id⟩

theorem askAppend_quiet (b : RecordBody) (s : State) : Quiet short s (askAppend b s) :=
  (Change.log _ (.queue _ _)).quiet

theorem openSegment_quiet {p : Port} {f : InFlight} {s : State} (h : s.WritersSound → segOf f.addr < 255) :
    Quiet short s (openSegment p f s) := by
  unfold openSegment
  dsimp only
  split
  case isFalse => exact .refl
  case isTrue =>
    have hset := EntriesKept.set (openRequest_entryUpdate f.sectors).bank (openRequest_entryUpdate f.sectors).sound
      s.map.entries (segOf f.addr)
    refine Quiet.trans ((updateEntry_quiet (openRequest_entryUpdate f.sectors) (segOf f.addr) s).trans
      (Change.session { s.session with openCount := s.session.openCount + 1 }).quiet) ?_
    exact placeBlockErase_quiet (hset.bank _).symm fun hs => h (hs.congr rfl rfl rfl rfl)

theorem beginOpening_quiet {p : Port} {f : InFlight} {s : State} (h : s.WritersSound → segOf f.addr < 255) :
    Quiet short s (beginOpening p f s) := by
  unfold beginOpening
  split
  · exact openSegment_quiet h
  · exact askAppend_quiet _ s

theorem ownerSectorErase_quiet {p : Port} {a : LogicalAddr} {s : State} (h : segOf a < 255) :
    Quiet short s (ownerSectorErase p a s) := by
  unfold ownerSectorErase
  dsimp only
  split
  · exact beginOpening_quiet fun _ => h
  · split
    · exact placeSectorErase_quiet (fun _ => h) (sectorOf_lt a)
    · exact (updateEntry_quiet (addSector_entryUpdate _) _ s).trans (giveResult_quiet _ _ _ _)

theorem ownerSegmentErase_quiet {p : Port} {a : LogicalAddr} {s : State} (h : segOf a < 255) :
    Quiet short s (ownerSegmentErase p a s) := by
  unfold ownerSegmentErase
  dsimp only
  split
  · exact beginOpening_quiet fun _ => h
  · exact placeBlockErase_quiet rfl fun _ => h

theorem ownerErase_quiet {p : Port} {f : InFlight} {s : State} (h : segOf f.addr < 255) :
    Quiet short s (ownerErase p f s) := by
  cases f with
  | sectorErase a => exact (loadTimer_quiet s).trans (ownerSectorErase_quiet h)
  | segmentErase a => exact (loadTimer_quiet s).trans (ownerSegmentErase_quiet h)
  | program a data => exact .refl

theorem sessionErase_quiet {p : Port} {f : InFlight} {s : State} (h : segOf f.addr < 255) :
    Quiet short s (sessionErase p f s) := by
  unfold sessionErase
  split
  · exact ownerErase_quiet h
  · cases s.session.lock with
    | free =>
      dsimp only
      split
      · exact (Change.session _).quiet.trans (ownerErase_quiet h)
      · exact giveResult_quiet _ _ _ s
    | session => exact giveResult_quiet _ _ _ s
    | rollback => exact giveResult_quiet _ _ _ s

theorem ownerProgram_quiet {p : Port} {a : LogicalAddr} {data : List Byte} {s : State} (h : segOf a < 255)
    (hpage : a.toNat % 256 + data.length ≤ 256) : Quiet short s (ownerProgram p a data s) := by
  unfold ownerProgram
  split
  · refine (Change.place _ _ fun _ _ => .inr ?_).quiet
    have hoff : offsetOf a % 0x100 = a.toNat % 256 := by simp only [offsetOf, Config.segmentSize]; omega
    have hlt : offsetOf a < 0x10000 := Nat.mod_lt _ (by decide)
    refine writeInPlace_shadow (portClient_ne_log p) rfl h rfl ?_ (by simp) (by simp) ?_
    · simp only [Access.length]
      omega
    · rintro _ _ ⟨⟩
      omega
  · exact giveResult_quiet _ _ _ s

theorem endSession_quiet (s : State) : Quiet short s (endSession s) := by
  unfold endSession
  split
  · exact (Change.entries _ (.map abandoned_entryUpdate.bank abandoned_entryUpdate.sound _)).quiet.trans
      (Change.session _).quiet
  · exact (Change.session _).quiet

theorem abandonSession_quiet (r : EndReason) (s : State) : Quiet short s (abandonSession r s) := by
  unfold abandonSession
  cases s.session.owner with
  | none => exact endSession_quiet s
  | some p =>
    cases r with
    | idle => exact (endSession_quiet s).trans (updatePort_quiet (.outcome _ _ _))
    | owner => exact (endSession_quiet s).trans (updatePort_quiet (.result _ _ _))
    | verdict =>
      cases s.commit.verdict with
      | none => exact endSession_quiet s
      | some v => exact (endSession_quiet s).trans (updatePort_quiet (.result _ _ _))

theorem endingComplete_quiet (p : Port) (isProgram ok : Bool) (s : State) :
    Quiet short s (endingComplete p isProgram ok s) :=
  (updatePort_quiet (.of_same rfl rfl rfl rfl)).trans (abandonSession_quiet _ _)

theorem openingDone_quiet (p : Port) (seg : Nat) (ok : Bool) (s : State) : Quiet short s (openingDone p seg ok s) := by
  unfold openingDone
  split
  · exact (updateEntry_quiet toStable_entryUpdate _ s).trans (endingComplete_quiet _ _ _ _)
  · split
    · exact (updateEntry_quiet openDone_entryUpdate _ s).trans (giveResult_quiet _ _ _ _)
    · exact ((updateEntry_quiet toStable_entryUpdate _ s).trans (Change.session _).quiet).trans (giveResult_quiet _ _ _ _)

theorem sectorEraseDone_quiet (p : Port) (seg : Nat) (ok : Bool) (s : State) :
    Quiet short s (sectorEraseDone p seg ok s) := by
  unfold sectorEraseDone
  split
  · exact endingComplete_quiet _ _ _ s
  · split
    · exact giveResult_quiet _ _ _ s
    · exact (updateEntry_quiet markDamaged_entryUpdate _ s).trans (giveResult_quiet _ _ _ _)

theorem blockEraseDone_quiet (p : Port) (seg : Nat) (ok : Bool) (s : State) :
    Quiet short s (blockEraseDone p seg ok s) := by
  unfold blockEraseDone
  split
  · exact endingComplete_quiet _ _ _ s
  · split
    · exact (updateEntry_quiet fullErase_entryUpdate _ s).trans (giveResult_quiet _ _ _ _)
    · exact (updateEntry_quiet markDamaged_entryUpdate _ s).trans (giveResult_quiet _ _ _ _)

theorem ownerEraseDone_quiet (p : Port) (e : FlashErase) (ok : Bool) (s : State) :
    Quiet short s (ownerEraseDone p e ok s) := by
  unfold ownerEraseDone
  cases e.kind with
  | sector => exact sectorEraseDone_quiet _ _ _ s
  | block =>
    dsimp only
    split
    · exact openingDone_quiet _ _ _ s
    · exact blockEraseDone_quiet _ _ _ s

theorem sessionSoftReset_quiet (p : Port) (s : State) : Quiet short s (sessionSoftReset p s) := by
  unfold sessionSoftReset
  cases s.session.state with
  | active =>
    dsimp only
    split
    · exact abandonSession_quiet _ s
    · exact (Change.session _).quiet
  | nobody => exact .refl
  | closing => exact .refl
  | ending => exact .refl

/-! ### The Check Unit, the readers and the start-up check -/

theorem placeChunk_quiet (s : State) : Quiet short s (placeChunk s) := by
  unfold placeChunk
  cases s.reader with
  | none => exact .refl
  | some r =>
    cases hr : rangeStart r.work with
    | none => simp only [hr]; exact .refl
    | some x => simp only [hr]; exact placeRead_quiet _ _ _ s

theorem startHeader_quiet (client : CheckClient) (s : State) : Quiet short s (startHeader client s) :=
  (Change.check _ _).quiet.trans (placeChunk_quiet _)

theorem placeDescriptor_quiet (client : CheckClient) (seg : Nat) (s : State) :
    Quiet short s (placeDescriptor client seg s) :=
  (Change.check _ _).quiet.trans (placeRead_quiet _ _ _ _)

theorem startSegmentRange_quiet (client : CheckClient) (seg length : Nat) (checkValue : Word32) (s : State) :
    Quiet short s (startSegmentRange client seg length checkValue s) :=
  (Change.check _ _).quiet.trans (placeChunk_quiet _)

theorem enterPhase_quiet (ph : StartPhase) (s : State) : Quiet short s (enterPhase ph s) := (Change.seq _ (by rfl)).quiet

theorem phaseRunning_quiet (s : State) : Quiet short s (phaseRunning s) := (Change.seq _ (by rfl)).quiet

theorem endCheck_quiet (result : CheckResult) (s : State) : Quiet short s (endCheck result s) :=
  (Change.check _ _).quiet.trans (Change.seq _ (by rfl)).quiet

theorem checkPassed_quiet (s : State) : Quiet short s (checkPassed s) :=
  (endCheck_quiet _ s).trans (Change.seq _ (by rfl)).quiet

theorem noValidImage_quiet (s : State) : Quiet short s (noValidImage s) :=
  (Change.seq _ (by rfl)).quiet.trans (Change.fault _ (by decide) (by decide)).quiet

theorem askStartRollback_quiet (cause : RollbackCause) (s : State) : Quiet short s (askStartRollback cause s) :=
  (Change.image _ (by rfl) (by rfl)).quiet.trans (askAppend_quiet _ _)

theorem checkFailed_quiet (s : State) : Quiet short s (checkFailed s) := by
  unfold checkFailed
  dsimp only
  split
  · exact (endCheck_quiet _ s).trans (askStartRollback_quiet _ _)
  · exact (endCheck_quiet _ s).trans (noValidImage_quiet _)

theorem startVerify_quiet (start : Nat) (s : State) : Quiet short s (startVerify start s) := by
  unfold startVerify
  cases firstUsed start 0 (usedLengths s.seq.summary) with
  | some seg => exact placeDescriptor_quiet _ _ s
  | none => exact checkPassed_quiet s

theorem startHeaderTaken_quiet (sm : HeaderSummary) (s : State) : Quiet short s (startHeaderTaken sm s) := by
  unfold startHeaderTaken
  dsimp only
  split
  · exact (Change.seq _ (by rfl)).quiet.trans (startVerify_quiet _ _)
  · exact (Change.seq _ (by rfl)).quiet.trans (checkFailed_quiet _)

/-! ### The Commit Engine -/

theorem CommitRecord.sound_of_stage {c : CommitRecord} (h : c.stage ≠ .fill) : c.sound = true := by
  simp [CommitRecord.sound, h]

/-- An update of the commit record to a stage other than FILL. -/
theorem setCommit_quiet {c : CommitRecord} (h : c.stage ≠ .fill) (s : State) : Quiet short s (s.setCommit c) :=
  (Change.commit c fun _ => CommitRecord.sound_of_stage h).quiet

theorem failCommit_quiet (code : Code) (seg : BitVec 8) (s : State) : Quiet short s (failCommit code seg s) :=
  (((Change.commit _ (by exact id)).quiet.trans (abandonSession_quiet _ _)).trans (Change.check _ _).quiet).trans
    (setCommit_quiet (by simp [CommitRecord.reset]) _)

theorem enterRecord_quiet (s : State) : Quiet short s (enterRecord s) :=
  ((Change.check _ _).quiet.trans (setCommit_quiet (by simp) _)).trans (askAppend_quiet _ _)

theorem commitVerify_quiet (start : Nat) (s : State) : Quiet short s (commitVerify start s) := by
  unfold commitVerify
  cases firstUsed start 0 (usedLengths s.commit.summary) with
  | some seg => exact (setCommit_quiet (by simp) _).trans (placeDescriptor_quiet _ _ _)
  | none => exact enterRecord_quiet s

/-- R61, R62: the cursor of a copy stays in range. -/
theorem placeCopyRead_quiet {cur : Cursor} {page : Nat} {s : State}
    (h : s.commit.sound = true → cur.seg < 255 ∧ cur.sector < 16 ∧ page < 16) :
    Quiet short s (placeCopyRead cur page s) := by
  refine (Change.commit _ fun hs => ?_).quiet.trans (placeRead_quiet _ _ _ _)
  obtain ⟨hseg, hsec, hpage⟩ := h hs
  simp [CommitRecord.sound, hseg, hsec, hpage, Config.mappedSegments]

theorem firstStale_lt {fresh : SectorSet} {start sector : Nat} (h : firstStale fresh start = some sector) :
    sector < 16 := List.mem_range.mp (List.mem_of_find?_eq_some h)

theorem fillFrom_quiet : ∀ (k seg : Nat) (s : State), k = 0 ∨ k + seg ≤ 255 → Quiet short s (fillFrom k seg s)
  | 0, _, s, _ => (setCommit_quiet (by simp) _).trans (commitVerify_quiet _ _)
  | k + 1, seg, s, h => by
    unfold fillFrom
    split
    · split
      · exact (updateEntry_quiet beginFill_entryUpdate _ s).trans (fillFrom_quiet k (seg + 1) _ (by omega))
      · next sector hst =>
        exact (updateEntry_quiet beginFill_entryUpdate _ s).trans
          (placeCopyRead_quiet fun _ => ⟨by dsimp only; omega, firstStale_lt hst, by decide⟩)
    · exact fillFrom_quiet k (seg + 1) s (by omega)

/-- The fill decides the stage anew. -/
theorem fillFrom_stage (stage : CommitStage) (k seg : Nat) (s : State) :
    fillFrom k seg (s.setCommit { s.commit with stage := stage }) = fillFrom k seg s := by
  induction k generalizing seg s with
  | zero => rfl
  | succ k ih =>
    have hupd : updateEntry seg MapEntry.beginFill (s.setCommit { s.commit with stage := stage }) =
        (updateEntry seg MapEntry.beginFill s).setCommit
          { (updateEntry seg MapEntry.beginFill s).commit with stage := stage } := rfl
    have hentry : (s.setCommit { s.commit with stage := stage }).entry seg = s.entry seg := rfl
    unfold fillFrom
    rw [hentry]
    split
    · split
      · rw [hupd, ih]
      · rfl
    · exact ih _ _

theorem fillOn_quiet (seg : Nat) (s : State) : Quiet short s (fillOn seg s) :=
  fillFrom_quiet _ _ s (by simp only [Config.mappedSegments]; omega)

theorem commitHeader_quiet (sm : HeaderSummary) (s : State) : Quiet short s (commitHeader sm s) := by
  unfold commitHeader
  dsimp only
  have hset : Quiet short s ((s.setCheck s.check none).setCommit { s.commit with summary := some sm }) :=
    (Change.check _ _).quiet.trans (Change.commit _ (by exact id)).quiet
  split
  · exact hset.trans (failCommit_quiet _ _ _)
  · split
    · exact hset.trans (failCommit_quiet _ _ _)
    · refine hset.trans ?_
      rw [fillOn, fillFrom_stage]
      exact fillOn_quiet 0 _

theorem rangeResult_quiet (r : Reader) (crc : Word32) (s : State) : Quiet short s (rangeResult r crc s) := by
  obtain ⟨client, work⟩ := r
  unfold rangeResult
  cases work with
  | header cap =>
    cases client with
    | commitEngine => exact commitHeader_quiet _ s
    | sequencer => exact startHeaderTaken_quiet _ s
  | segment seg checkValue =>
    cases client with
    | commitEngine =>
      dsimp only
      split
      · exact commitVerify_quiet _ s
      · exact failCommit_quiet _ _ s
    | sequencer =>
      dsimp only
      split
      · exact startVerify_quiet _ s
      · exact checkFailed_quiet s
  | descriptor seg => exact .refl

theorem PortKept.commitBegins (q : HostPort) :
    PortKept q
      { q with state := if q.state = .opBusy then .commitBusy else q.state, inFlight := none, code := .success, seg := 0 } := by
  by_cases h : q.state = .opBusy
  · exact .of_busy (.inl h) (.inr (by simp [h])) rfl rfl rfl
  · refine ⟨fun hf => ?_, fun _ hfit => ?_, fun hs ht => ?_, fun hs => ?_⟩
    · have hin : q.inFlight = none := by simpa [h] using hf.2.1
      simpa [HostPort.formed, HostPort.pins, h, hin] using hf
    · simpa [HostPort.heldFits, h] using hfit
    · simpa [h] using ⟨hs, ht⟩
    · simpa [h] using hs

theorem startCommitEngine_quiet (p : Port) (s : State) : Quiet short s (startCommitEngine p s) := by
  unfold startCommitEngine
  dsimp only
  have hset (s : State) (f : HostPort → HostPort) (hf : ∀ q, PortKept q (f q)) (x : Session) :
      Quiet short s
        (((updatePort p f s).setSession x).setCommit { CommitRecord.reset with stage := .header }) :=
    ((updatePort_quiet (hf _)).trans (Change.session _).quiet).trans (setCommit_quiet (by simp) _)
  split
  · exact (hset s _ PortKept.commitBegins _).trans (failCommit_quiet _ _ _)
  · exact (hset s _ PortKept.commitBegins _).trans (startHeader_quiet _ _)

theorem ownerProgramDone_quiet (p : Port) (ok : Bool) (s : State) : Quiet short s (ownerProgramDone p ok s) := by
  unfold ownerProgramDone
  cases (s.port p).inFlight with
  | none => exact .refl
  | some f =>
    cases f with
    | sectorErase => exact .refl
    | segmentErase => exact .refl
    | program a data =>
      dsimp only
      split
      · exact endingComplete_quiet _ _ _ s
      · split
        · split
          · exact startCommitEngine_quiet p s
          · exact giveResult_quiet _ _ _ s
        · exact (updateEntry_quiet markDamaged_entryUpdate _ s).trans (giveResult_quiet _ _ _ _)

/-- Table 4.1: what the soundness of the commit record says in FILL. -/
theorem sound_fill {c : CommitRecord} {cur : Cursor} (hst : c.stage = .fill) (hcur : c.cursor = some cur) :
    c.sound = true ↔ c.page < 16 ∧ cur.seg < 255 ∧ cur.sector < 16 := by
  simp only [CommitRecord.sound, hst, hcur, ne_eq, not_true_eq_false, decide_false, Bool.false_or, Bool.and_eq_true,
    decide_eq_true_eq]
  rfl

/-- R62: in FILL a page that was read whole is programmed to the same offset of the shadow. -/
theorem copyReadDone_quiet {cur : Cursor} {bytes : List Byte} {s : State} (hcur : s.commit.cursor = some cur)
    (hst : s.commit.stage = .fill) (hb : short → bytes.length ≤ 256) : Quiet short s (copyReadDone cur bytes s) := by
  refine (Change.commit _ (by exact id)).quiet.trans
    (Change.place _ _ fun hshort hw => .inr ?_).quiet
  have hsound : s.commit.sound = true := hw.commit
  obtain ⟨hpage, hseg, hsec⟩ := (sound_fill hst hcur).mp hsound
  have hlen := hb hshort
  refine writeInPlace_shadow (by decide) rfl hseg rfl ?_ (by simp) (by simp) ?_
  · simp only [Access.length, copyOffset, Config.sectorSize, Config.pageSize]
    omega
  · rintro _ _ ⟨⟩
    simp only [copyOffset, Config.sectorSize, Config.pageSize]
    omega

theorem copyProgramDone_quiet {ok : Bool} {s : State} (h : ok = true → s.commit.stage = .fill) :
    Quiet short s (copyProgramDone ok s) := by
  unfold copyProgramDone
  cases hcur : s.commit.cursor with
  | none => exact .refl
  | some cur =>
    cases ok with
    | false => exact (Change.commit _ (by exact id)).quiet.trans (failCommit_quiet _ _ _)
    | true =>
      have hrange := fun hs => (sound_fill (h rfl) hcur).mp hs
      simp only [if_true]
      split
      · next hlt =>
        exact placeCopyRead_quiet fun hs => ⟨(hrange hs).2.1, (hrange hs).2.2, by omega⟩
      · split
        · next sector hst =>
          exact placeCopyRead_quiet fun hs => ⟨(hrange hs).2.1, firstStale_lt hst, by decide⟩
        · refine ((updateEntry_quiet endFill_entryUpdate _ s).trans (Change.commit _ fun hs => ?_).quiet).trans
            (fillOn_quiet _ _)
          exact (sound_fill (by exact h rfl) (by exact hcur)).mpr ⟨Nat.succ_pos 15, (hrange hs).2⟩

end

end Sys2Proof.Machine
end

section
/-!
PROOF layer, continued: the operations of the Image State unit, the switch and the Log Unit as sequences of atomic updates.
-/

namespace Sys2Proof.Machine

/-! ### The Log Unit's position and its records -/

/-- What `LogUnit.sound` checks, stated for every append and every walk of a replay. -/
theorem LogUnit.sound_iff (l : LogUnit) :
    l.sound = true ↔
      2 ≤ l.position ∧ l.position ≤ 512 ∧
        (∀ w, l.append = some w → l.position < 512 ∨ (w.stage ≠ .write ∧ w.stage ≠ .retryWrite)) ∧
        (∀ w, l.replay = some (.walk w) →
          2 ≤ w.position ∧ w.position < 512 ∧ ∀ k, w.miss = some k → 2 ≤ k ∧ k ≤ 512) := by
  have happend : (match l.append with
      | some w => decide (l.position < Config.positions) || (decide (w.stage ≠ .write) && decide (w.stage ≠ .retryWrite))
      | none => true) = true ↔
      ∀ w, l.append = some w → l.position < 512 ∨ (w.stage ≠ .write ∧ w.stage ≠ .retryWrite) := by
    cases l.append with
    | none => simp
    | some w => simp; rfl
  have hreplay : (match l.replay with
      | some (.walk w) =>
        decide (2 ≤ w.position) && decide (w.position < Config.positions) &&
          (match w.miss with
            | some k => decide (2 ≤ k) && decide (k ≤ Config.positions)
            | none => true)
      | some (.heads _) => true
      | none => true) = true ↔
      ∀ w, l.replay = some (.walk w) →
        2 ≤ w.position ∧ w.position < 512 ∧ ∀ k, w.miss = some k → 2 ≤ k ∧ k ≤ 512 := by
    cases l.replay with
    | none => simp
    | some r =>
      cases r with
      | heads => simp
      | walk w =>
        obtain ⟨_, _, _, _, _, miss⟩ := w
        cases miss <;> simp [and_assoc] <;> intros <;> rfl
  rw [LogUnit.sound]
  simp only [Bool.and_eq_true, decide_eq_true_eq]
  constructor
  · rintro ⟨⟨⟨h1, h2⟩, h3⟩, h4⟩
    exact ⟨h1, h2, happend.mp h3, hreplay.mp h4⟩
  · rintro ⟨h1, h2, h3, h4⟩
    exact ⟨⟨⟨h1, h2⟩, happend.mpr h3⟩, hreplay.mpr h4⟩

@[simp] theorem le32Bytes_length (w : Word32) : (le32Bytes w).length = 4 := by simp [le32Bytes]

@[simp] theorem bitmapBytes_length (m : Bitmap) : (bitmapBytes m).length = 32 := by simp [bitmapBytes]

theorem zeroFilled_length {n : Nat} {bs : List Byte} (h : bs.length ≤ n) : (zeroFilled n bs).length = n := by
  simp only [zeroFilled, List.length_append, List.length_replicate]
  omega

theorem bodyBytes_length_le (body : RecordBody) : (bodyBytes body).length ≤ 119 := by
  cases body <;> simp [bodyBytes]

theorem recordHead_length (seq : Word32) (body : RecordBody) : (recordHead seq body).length = 124 := by
  simp [recordHead, zeroFilled_length (bodyBytes_length_le body)]

theorem recordBytes_length (seq : Word32) (body : RecordBody) : (recordBytes seq body).length = 128 := by
  simp [recordBytes, recordHead_length]

theorem areaHeaderBytes_length (generation : Word32) : (areaHeaderBytes generation).length = 128 :=
  zeroFilled_length (by simp [areaHead, Config.positionSize])

/-- R77: a write into a map area by the Log Unit. -/
theorem writeInPlace_area {s : State} {a : Access} (area : Area) (pos : Nat) (ha : a.addr = positionAddr area pos)
    (hl : pos * 128 + a.length ≤ 0x10000) : s.WriteInPlace .log a := by
  refine .inr ⟨rfl, area, ?_, ?_⟩ <;> rw [ha] <;> simp only [positionAddr, Config.positionSize] <;> omega

/-- What the writers rely on holds of each port. -/
theorem State.WritersSound.port {s : State} (h : s.WritersSound) (p : Port) : (s.port p).formed := by
  cases p
  · exact h.hp0
  · exact h.hp1

section
variable {short : Prop}

/-! ### The switch and the answers of records -/

theorem releaseHeld_quiet (s : State) : Quiet short s (releaseHeld s) :=
  (firstChunk_quiet _ s).trans (firstChunk_quiet _ _)

theorem freeRollback_quiet (s : State) : Quiet short s (freeRollback s) := by
  unfold freeRollback
  split
  · exact (Change.session _).quiet
  · exact .refl

theorem switchEffect_moves (s : State) : Moves short s (switchEffect s) := by
  unfold switchEffect
  cases s.map.switch with
  | none => exact .quiet .refl
  | some sw =>
    obtain ⟨requester, flip, endsEpoch⟩ := sw
    refine Moves.then ?_ (releaseHeld_quiet _)
    cases requester with
    | commitEngine =>
      dsimp only [commitApplied]
      have hjump := Jump.switch (s := s) ⟨.commitEngine, flip, endsEpoch⟩
        (commitImage (mapBitmap s.map.entries) ((s.commit.summary.map HeaderSummary.serial).getD s.image.serial)
          s.seq.straps.trialLim s.image) fun _ => rfl
      refine .jump s _ .refl hjump ?_
      split
      · exact ((Change.session _).quiet.trans (setCommit_quiet (by simp [CommitRecord.reset]) _)).trans
          (updatePort_quiet (.result _ _ _))
      · exact (Change.session _).quiet.trans (setCommit_quiet (by simp [CommitRecord.reset]) _)
    | imageState =>
      dsimp only [rollbackApplied]
      have hjump := Jump.switch (s := s) ⟨.imageState, flip, endsEpoch⟩ (rollbackImage s.serving s.image)
        fun h => by simp [rollbackImage, State.serving, h]
      refine .jump s _ .refl hjump ?_
      split
      · exact .refl
      · exact (freeRollback_quiet _).trans (giveResult_quiet _ _ _ _)
      · exact .refl
      · exact enterPhase_quiet _ _
      · exact (Change.seq _ (by rfl)).quiet.trans (startHeader_quiet _ _)

theorem requestSwitch_moves (r : SwitchRequester) (flip : Bitmap) (s : State) :
    Moves short s (requestSwitch r flip s) := by
  unfold requestSwitch
  dsimp only
  split
  · exact ((Change.switchAsked _).calm (by rfl) (by rfl)).moves (switchEffect_moves _)
  · exact .quiet (Change.switchAsked _).quiet

theorem openAnswered_quiet (ok : Bool) (s : State) : Quiet short s (openAnswered ok s) := by
  unfold openAnswered
  dsimp only
  generalize hs1 :
    (if ok = true then
      (s.setSession { s.session with openLogged := true }).setImage { s.image with targetValid := false } else s) = s1
  have hset : Quiet short s s1 := by
    rw [← hs1]
    split
    · exact (Change.session _).quiet.trans (Change.image _ (by rfl) (by rfl)).quiet
    · exact .refl
  have hport : ∀ p, s1.port p = s.port p := by
    intro p
    rw [← hs1]
    split <;> simp
  cases s.session.owner with
  | none => exact hset
  | some p =>
    dsimp only
    split
    · exact hset.trans (abandonSession_quiet _ _)
    · cases hf : (s.port p).inFlight with
      | none => exact hset
      | some f =>
        dsimp only
        split
        · exact hset.trans (openSegment_quiet fun hw => (hw.port p).2.2.1 f (hport p ▸ hf))
        · exact (hset.trans (Change.session _).quiet).trans (giveResult_quiet _ _ _ _)

theorem commitAnswered_moves (ok : Bool) (s : State) : Moves short s (commitAnswered ok s) := by
  unfold commitAnswered
  split
  · refine Calm.moves (Change.calm (.commit _ fun _ => ?_) (by rfl) (by rfl)) (requestSwitch_moves _ _ _)
    exact CommitRecord.sound_of_stage (by simp)
  · exact .quiet (failCommit_quiet _ _ s)

theorem confirmAnswered_quiet (ok : Bool) (s : State) : Quiet short s (confirmAnswered ok s) := by
  unfold confirmAnswered
  cases s.image.acceptance with
  | none => exact .refl
  | some x =>
    dsimp only
    split
    · split
      · exact (Change.image _ (by rfl) (by rfl)).quiet.trans (giveResult_quiet _ _ _ _)
      · exact (Change.image _ (by rfl) (by rfl)).quiet.trans (giveResult_quiet _ _ _ _)
    · exact (Change.image _ (by rfl) (by rfl)).quiet.trans (giveResult_quiet _ _ _ _)

theorem trialAnswered_quiet (count : Fin 4) (ok : Bool) (s : State) : Quiet short s (trialAnswered count ok s) := by
  cases ok with
  | true => exact (Change.image _ (by rfl) (by rfl)).quiet.trans (enterPhase_quiet _ _)
  | false => exact enterPhase_quiet _ s

theorem rollbackAnswered_moves (ok : Bool) (s : State) : Moves short s (rollbackAnswered ok s) := by
  unfold rollbackAnswered
  cases s.image.rollback with
  | none => exact .quiet .refl
  | some x =>
    obtain ⟨who, cause⟩ := x
    dsimp only
    split
    · exact requestSwitch_moves _ _ s
    · refine .quiet ((Change.image { s.image with rollback := none } rfl rfl).quiet.trans ?_)
      cases who with
      | port p => exact (freeRollback_quiet _).trans (giveResult_quiet _ _ _ _)
      | sequencer =>
        cases cause with
        | trialExpired => exact (Change.fault .trialExpired (by decide) (by decide)).quiet.trans (enterPhase_quiet _ _)
        | startCheck => exact noValidImage_quiet _
        | requested => exact .refl

theorem answerAppend_moves (b : RecordBody) (ok : Bool) (s : State) : Moves short s (answerAppend b ok s) := by
  cases b with
  | base sm => exact .quiet .refl
  | opened => exact .quiet (openAnswered_quiet ok s)
  | commit bm serial crc limit => exact commitAnswered_moves ok s
  | trial count => exact .quiet (trialAnswered_quiet count ok s)
  | confirm serial => exact .quiet (confirmAnswered_quiet ok s)
  | rollback bm serial cause => exact rollbackAnswered_moves ok s

theorem trialStep_quiet (s : State) : Quiet short s (trialStep s) := by
  unfold trialStep
  split
  · exact enterPhase_quiet _ s
  · split
    · exact (phaseRunning_quiet s).trans (askAppend_quiet _ _)
    · split
      · exact (phaseRunning_quiet s).trans (askStartRollback_quiet _ _)
      · exact (Change.fault .trialExpired (by decide) (by decide)).quiet.trans (enterPhase_quiet _ _)

/-! ### Appends -/

/-- An update of the Log Unit that leaves its lock state, its position, its replay and its initialisation, and ends the
append in progress or leaves it. -/
theorem LogKept.of_append {l l' : LogUnit} (hlock : l'.lock = l.lock) (hpos : l'.position = l.position)
    (hreplay : l'.replay = l.replay) (hinit : l'.initStep = l.initStep)
    (happend : ∀ w, l'.append = some w → l.append = some w ∨ (w.stage ≠ .write ∧ w.stage ≠ .retryWrite)) :
    LogKept l l' := by
  refine ⟨hlock, hreplay.trans, hinit.trans, fun h => ?_⟩
  rw [LogUnit.sound_iff] at h ⊢
  obtain ⟨h1, h2, h3, h4⟩ := h
  refine ⟨hpos ▸ h1, hpos ▸ h2, fun w hw => ?_, hreplay ▸ h4⟩
  rcases happend w hw with hw | hw
  · exact hpos ▸ h3 w hw
  · exact .inr hw

theorem setLog_calm {l : LogUnit} {s : State} (h : LogKept s.log l) : Calm short s (s.setLog l) :=
  (Change.log l h).calm (by rfl) (by rfl)

theorem popAppend_calm (s : State) : Calm short s (popAppend s) :=
  setLog_calm (.of_append rfl rfl rfl rfl nofun)

theorem logFail_calm (s : State) : Calm short s (logFail s) :=
  Change.logFail.calm (by simp) (by simp)

theorem refuseAppend_moves (b : RecordBody) (s : State) : Moves short s (refuseAppend b s) :=
  (popAppend_calm s).moves (answerAppend_moves _ _ _)

theorem failAppend_moves (b : RecordBody) (s : State) : Moves short s (failAppend b s) :=
  ((logFail_calm s).trans (popAppend_calm _)).moves (answerAppend_moves _ _ _)

/-- R84: after an update of the Log Unit that leaves it sound once the append has ended. -/
theorem succeedAppend_moves {l : LogUnit} {s : State} (b : RecordBody) (h : LogKept s.log { l with append := none }) :
    Moves short s (succeedAppend b (s.setLog l)) :=
  Calm.moves
    (setLog_calm
      (l := { l with
        queue := l.queue.tail, append := none, summary := applyRecord l.summary b, nextSeq := l.nextSeq + 1 })
      ⟨h.lock, h.replay, h.initStep, h.sound⟩)
    (answerAppend_moves b true _)

/-- R84, R86: a record is written below position 512. -/
theorem writeRecord_quiet {stage : AppendStage} (b : RecordBody) {s : State} (hst : stage = .write ∨ stage = .retryWrite)
    (hpos : s.log.sound = true → s.log.position < 512) : Quiet short s (writeRecord stage b s) := by
  refine (Change.log _ ⟨by rfl, by exact id, by exact id, fun h => ?_⟩).quiet.trans
    (Change.place _ _ fun _ hw => .inr ?_).quiet
  · have hlt := hpos h
    rw [LogUnit.sound_iff] at h ⊢
    obtain ⟨h1, h2, h3, h4⟩ := h
    exact ⟨h1, h2, fun _ _ => .inl hlt, h4⟩
  · have hlt : s.log.position < 512 := by
      rcases (LogUnit.sound_iff _).mp hw.log |>.2.2.1 _ rfl with hlt | hne
      · exact hlt
      · rcases hst with rfl | rfl <;> simp at hne
    refine writeInPlace_area _ _ rfl ?_
    simp only [Access.length, recordBytes_length]
    omega

theorem compactOrRefuse_moves (retry : Bool) (b : RecordBody) (s : State) :
    Moves short s (compactOrRefuse retry b s) := by
  unfold compactOrRefuse
  split
  · exact failAppend_moves b s
  · refine .quiet ((setLog_calm (.of_append (by rfl) (by rfl) (by rfl) (by rfl) ?_)).quiet.trans (Change.place _ _ fun _ _ => .inr ?_).quiet)
    · rintro _ ⟨⟩
      exact .inr ⟨by simp, by simp⟩
    · exact writeInPlace_area s.log.current.other 0 (by simp [positionAddr, Access.addr])
        (by simp [Access.length, Config.segmentSize])

theorem startAppend_moves (b : RecordBody) (s : State) : Moves short s (startAppend b s) := by
  unfold startAppend
  split
  · exact refuseAppend_moves b s
  · split
    · exact compactOrRefuse_moves false b s
    · next hpos =>
      split
      · exact failAppend_moves b s
      · refine .quiet (writeRecord_quiet b (.inl rfl) fun h => ?_)
        have := ((LogUnit.sound_iff _).mp h).2.1
        simp only [Config.positions] at hpos
        omega

/-- R84, R85: the position rises behind a record that was written, with its append ended or being read back. -/
theorem LogKept.recordEnded {l : LogUnit} {w : Append} (hw : l.append = some w)
    (hst : w.stage = .write ∨ w.stage = .retryWrite) (x : Option Append)
    (hx : ∀ y, x = some y → y.stage ≠ .write ∧ y.stage ≠ .retryWrite) :
    LogKept l { l with position := l.position + 1, append := x } := by
  refine ⟨rfl, id, id, fun h => ?_⟩
  rw [LogUnit.sound_iff] at h ⊢
  obtain ⟨h1, h2, h3, h4⟩ := h
  have hlt : l.position < 512 := by
    rcases h3 w hw with hlt | hne
    · exact hlt
    · rcases hst with hst | hst <;> simp [hst] at hne
  exact ⟨Nat.le_succ_of_le h1, hlt, fun y hy => .inr (hx y hy), h4⟩

theorem recordDone_moves (ok : Bool) (s : State) : Moves short s (recordDone ok s) := by
  unfold recordDone
  cases hw : s.log.append with
  | none => exact .quiet .refl
  | some w =>
    cases s.log.queue with
    | nil => exact .quiet .refl
    | cons b q =>
      have hback (stage : AppendStage) (hst : w.stage = .write ∨ w.stage = .retryWrite)
          (hne : stage ≠ .write ∧ stage ≠ .retryWrite) :
          Quiet short s
            (place .log (.read (positionAddr s.log.current w.position) Config.positionSize)
              (s.setLog { s.log with position := s.log.position + 1, append := some { w with stage := stage } })) :=
        (setLog_calm (.recordEnded hw hst _ (by rintro _ ⟨⟩; exact hne))).quiet.trans (placeRead_quiet _ _ _ _)
      dsimp only
      cases hst : w.stage with
      | write =>
        cases ok with
        | true => exact succeedAppend_moves b (.recordEnded hw (.inl hst) none nofun)
        | false => exact .quiet (hback .readBack (.inl hst) ⟨by simp, by simp⟩)
      | retryWrite =>
        cases ok with
        | true => exact succeedAppend_moves b (.recordEnded hw (.inr hst) none nofun)
        | false => exact .quiet (hback .retryReadBack (.inr hst) ⟨by simp, by simp⟩)
      | readBack => exact .quiet .refl
      | retryReadBack => exact .quiet .refl
      | compacting step => exact .quiet .refl

theorem readBackDone_moves (bs : List Byte) (s : State) : Moves short s (readBackDone bs s) := by
  have hsucceed (b : RecordBody) : Moves short s (succeedAppend b s) :=
    succeedAppend_moves (l := s.log) b (.of_append rfl rfl rfl rfl nofun)
  unfold readBackDone
  cases s.log.append with
  | none => exact .quiet .refl
  | some w =>
    cases s.log.queue with
    | nil => exact .quiet .refl
    | cons b q =>
      dsimp only
      cases w.stage with
      | readBack =>
        dsimp only
        split
        · exact hsucceed b
        · split
          · exact compactOrRefuse_moves true b s
          · next hpos =>
            refine .quiet (writeRecord_quiet b (.inr rfl) fun h => ?_)
            have := ((LogUnit.sound_iff _).mp h).2.1
            simp only [Config.positions] at hpos
            omega
      | retryReadBack =>
        dsimp only
        split
        · exact hsucceed b
        · exact failAppend_moves b s
      | write => exact .quiet .refl
      | retryWrite => exact .quiet .refl
      | compacting step => exact .quiet .refl

/-- R78: the header of a map area is written at its beginning. -/
theorem placeAreaHeader_quiet (area : Area) (generation : Word32) (s : State) :
    Quiet short s (place .log (.program (areaBase area) (areaHeaderBytes generation)) s) :=
  (Change.place _ _ fun _ _ => .inr (writeInPlace_area area 0 (by simp [positionAddr, Access.addr])
    (by simp [Access.length, areaHeaderBytes_length]))).quiet

/-- R78: the BASE of a map area is written at position 1. -/
theorem placeBase_quiet (area : Area) (seq : Word32) (sm : LogSummary) (s : State) :
    Quiet short s (place .log (.program (positionAddr area 1) (recordBytes seq (.base sm))) s) :=
  (Change.place _ _ fun _ _ => .inr (writeInPlace_area area 1 rfl
    (by simp [Access.length, recordBytes_length]))).quiet

theorem compactionDone_moves (w : Append) (b : RecordBody) (step : AreaStep) (ok : Bool) (s : State) :
    Moves short s (compactionDone w b step ok s) := by
  have hstep (stage : AreaStep) :
      Quiet short s (s.setLog { s.log with append := some { w with stage := .compacting stage } }) := by
    refine (setLog_calm (.of_append (by rfl) (by rfl) (by rfl) (by rfl) ?_)).quiet
    rintro _ ⟨⟩
    exact .inr ⟨by simp, by simp⟩
  cases ok with
  | false => exact failAppend_moves b s
  | true =>
    cases step with
    | erase => exact .quiet ((hstep .header).trans (placeAreaHeader_quiet _ _ _))
    | header => exact .quiet ((hstep .base).trans (placeBase_quiet _ _ _ _))
    | base =>
      refine .quiet ((Change.log _ ⟨by rfl, by exact id, by exact id, fun h => ?_⟩).quiet.trans
        (writeRecord_quiet b (by cases w.retry <;> simp) fun _ => (by decide : 2 < 512)))
      rw [LogUnit.sound_iff] at h ⊢
      obtain ⟨_, _, _, h4⟩ := h
      exact ⟨Nat.le_refl 2, (by decide : 2 ≤ 512), fun _ _ => .inl (by decide : 2 < 512), h4⟩

/-! ### Initialisation and replay -/

theorem logFail_of_ok {s : State} (h : s.log.lock = .ok) :
    logFail s = raiseFault .logFault (s.setLog { s.log with lock := .faulted }) := if_pos h

theorem logFail_of_ne {s : State} (h : s.log.lock ≠ .ok) : logFail s = s := if_neg h

theorem handOver_logFail_setLog (sm : LogSummary) (l : LogUnit) (s : State) :
    handOver sm (logFail (s.setLog l)) = logFail ((handOver sm s).setLog l) := by
  by_cases h : l.lock = .ok
  · rw [logFail_of_ok (s := s.setLog l) h, logFail_of_ok (s := (handOver sm s).setLog l) h]
    rfl
  · rw [logFail_of_ne (s := s.setLog l) h, logFail_of_ne (s := (handOver sm s).setLog l) h]
    rfl

theorem initDone_moves {step : AreaStep} (ok : Bool) {s : State} (h : s.log.initStep = some step) :
    Moves short s (initDone step ok s) := by
  have hstep (stage : AreaStep) : Quiet short s (s.setLog { s.log with initStep := some stage }) :=
    (Change.log _ ⟨by rfl, by exact id, fun hn => (by simp [h] at hn), by exact id⟩).quiet
  have hsound {l : LogUnit} (hl : l.sound = true) :
      ({ l with position := 2 } : LogUnit).sound = true := by
    rw [LogUnit.sound_iff] at hl ⊢
    obtain ⟨_, _, _, h4⟩ := hl
    exact ⟨Nat.le_refl 2, (by decide : 2 ≤ 512), fun _ _ => .inl (by decide : 2 < 512), h4⟩
  cases ok with
  | true =>
    cases step with
    | erase => exact .quiet ((hstep .header).trans (placeAreaHeader_quiet _ _ _))
    | header => exact .quiet ((hstep .base).trans (placeBase_quiet _ _ _ _))
    | base =>
      refine .quiet ((Change.log _ ⟨by rfl, by exact id, by exact fun _ => rfl, ?_⟩).quiet.trans (enterPhase_quiet _ _))
      exact fun hl => hsound hl
  | false =>
    have hlog : LogKept (handOver LogSummary.initial s).log { s.log with initStep := none } :=
      ⟨rfl, id, fun _ => rfl, id⟩
    refine .jump s _ .refl (.handOver LogSummary.initial (.inr (by simp [h]))) ?_
    show Quiet short _ (enterPhase .trialStep (handOver _ (logFail (s.setLog { s.log with initStep := none }))))
    rw [handOver_logFail_setLog]
    exact ((Change.log _ hlog).quiet.trans Change.logFail.quiet).trans (enterPhase_quiet _ _)

theorem areaStepDone_moves (step : AreaStep) (ok : Bool) (s : State) : Moves short s (areaStepDone step ok s) := by
  have hinit : Moves short s (if s.log.initStep = some step then initDone step ok s else s) := by
    split
    · next h => exact initDone_moves ok h
    · exact .quiet .refl
  unfold areaStepDone
  cases s.log.append with
  | none => exact hinit
  | some w =>
    cases s.log.queue with
    | nil => exact hinit
    | cons b q =>
      dsimp only
      split
      · exact compactionDone_moves w b step ok s
      · exact .quiet .refl

theorem logProgramDone_moves (ok : Bool) (s : State) : Moves short s (logProgramDone ok s) := by
  unfold logProgramDone
  split
  · exact recordDone_moves ok s
  · split
    · exact areaStepDone_moves _ ok s
    · split
      · exact areaStepDone_moves _ ok s
      · exact .quiet .refl

theorem replayRead_quiet {addr : Nat} {r : Replay} {s : State} (h : s.log.replay ≠ none)
    (hr : s.log.sound = true → ∀ w, r = .walk w →
      2 ≤ w.position ∧ w.position < 512 ∧ ∀ k, w.miss = some k → 2 ≤ k ∧ k ≤ 512) :
    Quiet short s (replayRead addr r s) := by
  refine (Change.log _ ⟨by rfl, fun hn => absurd hn h, by exact id, fun hs => ?_⟩).quiet.trans (placeRead_quiet _ _ _ _)
  have hw := hr hs
  rw [LogUnit.sound_iff] at hs ⊢
  obtain ⟨h1, h2, h3, _⟩ := hs
  exact ⟨h1, h2, h3, fun w hwalk => hw w (by simpa using hwalk)⟩

theorem endScan_quiet (result : ScanResult) (ph : StartPhase) (s : State) : Quiet short s (endScan result ph s) := by
  refine ((Change.log _ ⟨by rfl, by exact fun _ => rfl, by exact id, fun hs => ?_⟩).quiet.trans
    (Change.seq _ (by rfl)).quiet).trans (enterPhase_quiet _ _)
  rw [LogUnit.sound_iff] at hs ⊢
  obtain ⟨h1, h2, h3, _⟩ := hs
  exact ⟨h1, h2, h3, nofun⟩

theorem chooseArea_moves {h0 b0 h1 b1 : List Byte} {s : State} (h : s.log.replay ≠ none) :
    Moves short s (chooseArea h0 b0 h1 b1 s) := by
  have hwalk (addr : Nat) (area : Area) (u : Word32 × Word32 × LogSummary) :
      Quiet short s (replayRead addr (.walk (startWalk area u)) s) :=
    replayRead_quiet h fun _ w hw => by
      cases hw
      exact ⟨Nat.le_refl 2, (by decide : 2 < 512), nofun⟩
  unfold chooseArea
  split
  · dsimp only
    split
    · exact .quiet (hwalk _ _ _)
    · exact .quiet (hwalk _ _ _)
  · exact .quiet (hwalk _ _ _)
  · exact .quiet (hwalk _ _ _)
  · split
    · exact .jump s _ .refl (.handOver _ (.inl h)) (endScan_quiet _ _ _)
    · exact .jump s _ .refl (.handOver _ (.inl h)) (Change.logCorrupt.quiet.trans (endScan_quiet _ _ _))

/-- R92, R93: a position is taken, and the place where the log ends stays in range. -/
theorem walkPosition_range {w : ReplayWalk} (bs : List Byte) (h1 : 2 ≤ w.position) (h2 : w.position < 512)
    (h3 : ∀ k, w.miss = some k → 2 ≤ k ∧ k ≤ 512) :
    (walkPosition w bs).position = w.position + 1 ∧ ∀ k, (walkPosition w bs).miss = some k → 2 ≤ k ∧ k ≤ 512 := by
  have hmiss : ∀ k, some (if erasedBytes bs = true then w.miss.getD w.position else w.position + 1) = some k →
      2 ≤ k ∧ k ≤ 512 := by
    intro k hk
    cases hm : w.miss with
    | none => rw [hm] at hk; cases hk; dsimp only [Option.getD_none]; split <;> omega
    | some j =>
      have := h3 j hm
      rw [hm] at hk
      cases hk
      dsimp only [Option.getD_some]
      split <;> omega
  unfold walkPosition
  dsimp only
  split
  · split
    · exact ⟨rfl, nofun⟩
    · exact ⟨rfl, hmiss⟩
  · exact ⟨rfl, hmiss⟩

theorem replayTake_moves (bs : List Byte) (s : State) : Moves short s (replayTake bs s) := by
  unfold replayTake
  cases hr : s.log.replay with
  | none => exact .quiet .refl
  | some r =>
    have hne : s.log.replay ≠ none := by simp [hr]
    have hheads (addr : Nat) (read : List (List Byte)) : Quiet short s (replayRead addr (.heads read) s) :=
      replayRead_quiet hne nofun
    match r with
    | .heads [] => exact .quiet (hheads _ _)
    | .heads [h0] => exact .quiet (hheads _ _)
    | .heads [h0, b0] => exact .quiet (hheads _ _)
    | .heads (h0 :: b0 :: h1 :: _) => exact chooseArea_moves hne
    | .walk w =>
      have hrange : s.log.sound = true →
          2 ≤ (walkPosition w bs).position ∧ (walkPosition w bs).position ≤ 512 ∧
            ∀ k, (walkPosition w bs).miss = some k → 2 ≤ k ∧ k ≤ 512 := fun hs => by
        obtain ⟨h1, h2, h3⟩ := ((LogUnit.sound_iff _).mp hs).2.2.2 w hr
        obtain ⟨hp, hm⟩ := walkPosition_range bs h1 h2 h3
        exact ⟨by omega, by omega, hm⟩
      dsimp only
      split
      · next hlt =>
        refine .quiet (replayRead_quiet hne fun hs x hx => ?_)
        cases hx
        exact ⟨(hrange hs).1, hlt, (hrange hs).2.2⟩
      · refine .jump s _ .refl (.handOver (walkPosition w bs).summary (.inl hne)) ?_
        refine Quiet.trans
          (Change.log (s := handOver (walkPosition w bs).summary s)
            { s.log with
              area := some (walkPosition w bs).area
              generation := some (walkPosition w bs).generation
              position := (walkPosition w bs).miss.getD Config.positions
              nextSeq := (walkPosition w bs).last + 1
              summary := (walkPosition w bs).summary
              append := none } ⟨rfl, id, id, fun hs => ?_⟩).quiet (endScan_quiet _ _ _)
        have hmiss : 2 ≤ (walkPosition w bs).miss.getD Config.positions ∧
            (walkPosition w bs).miss.getD Config.positions ≤ 512 := by
          cases hm : (walkPosition w bs).miss with
          | none => decide
          | some k => exact (hrange hs).2.2 k hm
        have h4 := ((LogUnit.sound_iff _).mp hs).2.2.2
        exact (LogUnit.sound_iff _).mpr ⟨hmiss.1, hmiss.2, nofun, h4⟩

end

end Sys2Proof.Machine
end

section
/-!
PROOF layer, continued: the requests of the hosts, and every command (`exec_does`).
-/

namespace Sys2Proof.Machine

section
variable {short : Prop}

/-! ### Requests -/

theorem decideAccept_quiet (p : Port) (s : State) : Quiet short s (decideAccept p s) := by
  unfold decideAccept
  split
  · exact giveResult_quiet _ _ _ s
  · split
    · exact giveResult_quiet _ _ _ s
    · split
      · exact giveResult_quiet _ _ _ s
      · exact (Change.image _ (by rfl) (by rfl)).quiet.trans (askAppend_quiet _ _)

theorem decideRevert_quiet (p : Port) (s : State) : Quiet short s (decideRevert p s) := by
  unfold decideRevert
  split
  · exact giveResult_quiet _ _ _ s
  · split
    · exact giveResult_quiet _ _ _ s
    · split
      · exact giveResult_quiet _ _ _ s
      · split
        · exact giveResult_quiet _ _ _ s
        · exact ((Change.image _ (by rfl) (by rfl)).quiet.trans (Change.session _).quiet).trans (askAppend_quiet _ _)

theorem otherProgram_quiet (p : Port) (a : LogicalAddr) (data : List Byte) (s : State) :
    Quiet short s (otherProgram p a data s) := by
  unfold otherProgram
  split
  · exact decideAccept_quiet p s
  · split
    · exact decideRevert_quiet p s
    · cases s.session.lock with
      | session => exact giveResult_quiet _ _ _ s
      | free => exact giveResult_quiet _ _ _ s
      | rollback => exact giveResult_quiet _ _ _ s

theorem sessionProgram_quiet {p : Port} {a : LogicalAddr} {data : List Byte} {s : State} (h : segOf a < 255)
    (hpage : a.toNat % 256 + data.length ≤ 256) : Quiet short s (sessionProgram p a data s) := by
  unfold sessionProgram
  split
  · unfold ownerProgramRequest
    split
    · exact abandonSession_quiet _ s
    · exact (loadTimer_quiet s).trans (ownerProgram_quiet h hpage)
  · exact otherProgram_quiet p a data s

/-- R149: what the port-level checks let through. -/
theorem portCheck_none {p : Port} {straps : Straps} {a : LogicalAddr} {n : Nat} (h : portCheck p straps a n = none) :
    segOf a < 255 ∧ a.toNat % 256 + n ≤ 256 := by
  unfold portCheck at h
  split at h
  · cases h
  · next hseg =>
    split at h
    · cases h
    · next hpage =>
      simp only [Config.mappedSegments, Config.pageSize] at hseg hpage
      omega

/-- R152: a port in READY passes on a request that addresses a mapped segment. -/
theorem passOn_quiet {p : Port} {f : InFlight} {s : State} (hr : (s.port p).state = .ready) (hf : segOf f.addr < 255) :
    Quiet short s (passOn p f s) := by
  refine updatePort_quiet (.of_ready hr rfl (fun ht _ => ?_) (by simp))
  refine ⟨⟨by simp [ht], by simp, ?_, by simp [ht]⟩, by simp [HostPort.pins, ht]⟩
  rintro _ ⟨⟩
  exact hf

theorem takeWrite_quiet {p : Port} {a : LogicalAddr} {n : Nat} {f : InFlight} {decideIt : State → State} {s : State}
    (hr : (s.port p).state = .ready) (hf : f.addr = a)
    (hd : ∀ x, segOf a < 255 → a.toNat % 256 + n ≤ 256 → Quiet short x (decideIt x)) :
    Quiet short s (takeWrite p a n f decideIt s) := by
  have hwel : Quiet short s (updatePort p (fun q => { q with wel := false }) s) :=
    updatePort_quiet (.of_same rfl rfl rfl rfl)
  unfold takeWrite
  dsimp only
  split
  · exact hwel
  · split
    · exact hwel.trans (updatePort_quiet (.outcome _ _ _))
    · next hcheck =>
      obtain ⟨hseg, hpage⟩ := portCheck_none hcheck
      exact (hwel.trans (passOn_quiet (by simpa [updatePort] using hr) (hf ▸ hseg))).trans (hd _ hseg hpage)

theorem takeProgram_quiet {p : Port} {a : LogicalAddr} {data : List Byte} {s : State} (hr : (s.port p).state = .ready) :
    Quiet short s (takeProgram p a data s) := by
  unfold takeProgram
  split
  · exact updatePort_quiet (.of_same rfl rfl rfl rfl)
  · exact takeWrite_quiet hr rfl fun _ => sessionProgram_quiet

theorem takeArrayRead_quiet {p : Port} {a : LogicalAddr} {clocks : Nat} {s : State} (hr : (s.port p).state = .ready) :
    Quiet short s (takeArrayRead p a clocks s) := by
  refine ((updatePort_quiet (.of_ready hr rfl (fun _ hi => ?_) (by simp))).trans (firstChunk_quiet _ _)).trans
    (deliver_quiet _ _ _)
  refine ⟨⟨by simp, by simp [hi], by simp [hi], ?_⟩, by simp [HostPort.pins]⟩
  rintro _ ⟨⟩
  exact .inl rfl

theorem putOut_quiet (p : Port) (bytes : List Byte) (s : State) : Quiet short s (putOut p bytes s) :=
  updatePort_quiet (.of_same rfl rfl rfl rfl)

theorem takeSoftReset_quiet (p : Port) (s : State) : Quiet short s (takeSoftReset p s) := by
  have hlatch : Quiet short s
      (updatePort p (fun q => { q with wel := false, refused := false, progFail := false, eraseFail := false }) s) :=
    updatePort_quiet (.of_same rfl rfl rfl rfl)
  unfold takeSoftReset
  dsimp only
  split
  · exact hlatch.trans (sessionSoftReset_quiet _ _)
  · exact hlatch

theorem takeReady_quiet {p : Port} {r : HostRequest} {s : State} (hr : (s.port p).state = .ready) :
    Quiet short s (takeReady p r s) := by
  cases r with
  | arrayRead a n => exact takeArrayRead_quiet hr
  | pageProgram a data => exact takeProgram_quiet hr
  | sectorErase a => exact takeWrite_quiet hr rfl fun _ hseg _ => sessionErase_quiet hseg
  | segmentErase a => exact takeWrite_quiet hr rfl fun _ hseg _ => sessionErase_quiet hseg
  | writeEnable =>
    exact updatePort_quiet (p := p) (s := s)
      (f := fun q => { q with wel := true, refused := false, progFail := false, eraseFail := false })
      (.of_same rfl rfl rfl rfl)
  | writeDisable =>
    exact updatePort_quiet (p := p) (s := s) (f := fun q => { q with wel := false }) (.of_same rfl rfl rfl rfl)
  | statusRead n => exact putOut_quiet _ _ s
  | extendedStatusRead n => exact putOut_quiet _ _ s
  | identRead n => exact putOut_quiet _ _ s
  | softReset => exact takeSoftReset_quiet p s
  | unknownCode code n => exact putOut_quiet _ _ s

theorem refuseBusy_quiet (p : Port) (r : HostRequest) (s : State) : Quiet short s (refuseBusy p r s) :=
  updatePort_quiet (.of_same rfl rfl rfl rfl)

theorem takeBusy_quiet (p : Port) (r : HostRequest) (s : State) : Quiet short s (takeBusy p r s) := by
  cases r with
  | arrayRead a n => exact (refuseBusy_quiet p _ s).trans (putOut_quiet _ _ _)
  | identRead n => exact (refuseBusy_quiet p _ s).trans (putOut_quiet _ _ _)
  | pageProgram a data => exact refuseBusy_quiet p _ s
  | sectorErase a => exact refuseBusy_quiet p _ s
  | segmentErase a => exact refuseBusy_quiet p _ s
  | writeEnable => exact refuseBusy_quiet p _ s
  | writeDisable => exact refuseBusy_quiet p _ s
  | statusRead n => exact putOut_quiet _ _ s
  | extendedStatusRead n => exact putOut_quiet _ _ s
  | softReset => exact takeSoftReset_quiet p s
  | unknownCode code n => exact putOut_quiet _ _ s

theorem takeRequest_quiet (p : Port) (r : HostRequest) (s : State) : Quiet short s (takeRequest p r s) := by
  unfold takeRequest
  split
  · next hr => exact takeReady_quiet hr
  · exact takeBusy_quiet p r s
  · exact takeBusy_quiet p r s
  · exact .refl
  · exact .refl

/-- The requests that a port holds may change where `HostPort.heldFits` allows it. -/
theorem PortKept.of_fits {q q' : HostPort} (hs : q'.state = q.state) (ht : q'.transfer = q.transfer)
    (hi : q'.inFlight = q.inFlight) (hh : q.heldFits → q'.heldFits) : PortKept q q' := by
  refine ⟨fun h => ?_, fun _ => hh, fun h h' => ⟨hs ▸ h, ht ▸ h'⟩, fun h => hs ▸ h⟩
  simpa only [HostPort.formed, HostPort.pins, hs, ht, hi, and_true] using h

theorem holdRequest_quiet {p : Port} (kept : List HostRequest) (r : HostRequest) {s : State}
    (h : (s.port p).state = .held ∨ ∃ t, (s.port p).transfer = some t ∧ t.ended = true) :
    Quiet short s (holdRequest p kept r s) :=
  updatePort_quiet (.of_fits rfl rfl rfl fun _ => .inr h)

theorem arrive_quiet (p : Port) (r : HostRequest) (s : State) : Quiet short s (arrive p r s) := by
  unfold arrive
  split
  · next hh => exact holdRequest_quiet _ _ (.inl hh)
  · split
    · next t ht =>
      split
      · next he => exact holdRequest_quiet _ _ (.inr ⟨t, ht, he⟩)
      · exact .refl
    · exact .refl
  · exact takeRequest_quiet p r s
  · exact takeRequest_quiet p r s
  · exact takeRequest_quiet p r s

theorem foldl_takeRequest_quiet (p : Port) : ∀ (rs : List HostRequest) (s : State),
    Quiet short s (rs.foldl (fun x r => takeRequest p r x) s)
  | [], _ => .refl
  | r :: rs, s => (takeRequest_quiet p r s).trans (foldl_takeRequest_quiet p rs _)

theorem takeHeld_quiet (p : Port) (clocks : Nat) (s : State) : Quiet short s (takeHeld p clocks s) :=
  (updatePort_quiet (.of_fits rfl rfl rfl fun _ => .inl rfl)).trans (foldl_takeRequest_quiet p _ _)

/-- A port that is left READY takes its held requests as one update and then the requests. -/
theorem takeHeld_updatePort (p : Port) (clocks : Nat) (f : HostPort → HostPort) (s : State) :
    takeHeld p clocks (updatePort p f s) =
      ((f (s.port p)).held.map (withClocks clocks)).foldl (fun x r => takeRequest p r x)
        (updatePort p (fun q => { f q with held := [] }) s) := by
  simp only [takeHeld, updatePort, port_setPort, setPort_setPort]

theorem hostChunkDone_quiet (p : Port) (clocks : Nat) (bytes : List Byte) (s : State) :
    Quiet short s (hostChunkDone p clocks bytes s) := by
  unfold hostChunkDone
  cases ht : (s.port p).transfer with
  | none => exact .refl
  | some t =>
    dsimp only
    split
    · next he =>
      rw [takeHeld_updatePort]
      refine (updatePort_quiet ⟨fun hq => ?_, fun _ _ => .inl rfl, fun _ hn => ?_, fun _ => by simp⟩).trans
        (foldl_takeRequest_quiet p _ _)
      · obtain ⟨h1, h2, h3, h4⟩ := hq
        have hst : (s.port p).state = .transfer := by simpa [ht] using h1
        have hin : (s.port p).inFlight = none := by simpa [hst] using h2
        have hep : t.epoch = none := by simpa [he] using h4 t ht
        simp [HostPort.formed, HostPort.pins, hin, ht, hep]
      · rw [ht] at hn
        cases hn
    · exact updatePort_quiet (.of_transfer ht rfl rfl rfl rfl rfl rfl)

theorem forgetHeld_quiet (p : Port) (s : State) : Quiet short s (forgetHeld p s) := by
  unfold forgetHeld
  split
  · exact updatePort_quiet (.of_fits rfl rfl rfl fun _ => .inl rfl)
  · refine updatePort_quiet (.of_fits rfl rfl rfl fun h => ?_)
    rcases h with h | h
    · exact .inl (by simp [h])
    · exact .inr h
  · exact .refl
  · exact .refl
  · exact .refl

theorem hostChunkThen_quiet (p : Port) (x : ChunkEnd) (bytes : List Byte) (s : State) :
    Quiet short s (hostChunkThen p x bytes s) := by
  unfold hostChunkThen
  dsimp only
  split
  · exact (hostChunkDone_quiet _ _ _ s).trans (formChunk_quiet _ _)
  · exact hostChunkDone_quiet _ _ _ s

/-! ### Completions -/

theorem finishRead_quiet {c : Client} {a n : Nat} {s : State} (h : s.flash.readInFlight c = some (a, n)) :
    Quiet short s (finishRead c a n s) := (Change.endRead c a n h).quiet.trans Change.look.quiet

theorem finishRead_calm {c : Client} {a n : Nat} {s : State} (h : s.flash.readInFlight c = some (a, n)) :
    Calm short s (finishRead c a n s) := by
  refine ⟨finishRead_quiet h, by simp, fun d x hd => ?_⟩
  have hsettle (f : FlashPort) : f.settle.slot d = f.slot d := by
    unfold FlashPort.settle
    (repeat' split) <;> rfl
  have hend : (s.flash.endTransfer c).slot d = .pending x := (hsettle _).symm.trans hd
  have hset : (s.flash.setSlot c .empty).slot d = .pending x := (slot_congr rfl rfl rfl rfl d).trans hend
  rw [slot_setSlot_ite] at hset
  split at hset
  · cases hset
  · exact hset

/-- R139: what a client does around the completion of its READ. -/
theorem finishReadThen_quiet {nextFirst : Bool} {c : Client} {a n : Nat} {f : State → State} {s : State}
    (h : s.flash.readInFlight c = some (a, n)) (hf : ∀ x, Quiet short x (f x)) :
    Quiet short s (finishReadThen nextFirst c a n f s) :=
  finishReadThen_keeps (Quiet short s) (Change.endRead c a n h).quiet (fun _ hx => hx.trans Change.look.quiet)
    fun x hx => hx.trans (hf x)

/-- The end of a program or an erase leaves the phase and only empties a slot. -/
theorem calm_of_slotEmptied {s t : State} {c : Client} (h : Change short s t) (hp : t.seq.phase = s.seq.phase)
    (hs : ∀ d, t.flash.slot d = (s.flash.setSlot c .empty).slot d) : Calm short s t := by
  refine ⟨h.quiet, hp, fun d x hd => ?_⟩
  rw [hs, slot_setSlot_ite] at hd
  split at hd
  · cases hd
  · exact hd

theorem finishProgram_calm {c : Client} {a : Nat} {data : List Byte} (left : Remains) {s : State}
    (h : s.flash.programInFlight = some (c, a, data)) : Calm short s (finishProgram c a data left s) :=
  calm_of_slotEmptied (c := c) (.endProgram c a data left h) (by simp) fun d => slot_congr rfl rfl rfl rfl d

theorem finishErase_calm {e : FlashErase} (left : Remains) {s : State} (h : s.flash.eraseRunning = some e) :
    Calm short s (finishErase e left s) :=
  calm_of_slotEmptied (c := e.client) (.endErase e left h) (by simp) fun d => slot_congr rfl rfl rfl rfl d

theorem chunkTaken_quiet (r : Reader) (bytes : List Byte) (s : State) : Quiet short s (chunkTaken r bytes s) := by
  unfold chunkTaken
  dsimp only
  split
  · exact (Change.check _ _).quiet.trans (placeChunk_quiet _)
  · exact (Change.check _ _).quiet

theorem grantNext_quiet {s t : State} (h : grantNext s = .next t) : Quiet short s t := by
  unfold grantNext at h
  split at h
  · next c a hc =>
    split at h
    · cases h
      exact (Change.grant c a hc).quiet
    · cases h
  · cases h
    exact .refl

theorem programTimedOut_moves (c : Client) (s : State) : Moves short s (programTimedOut c s) := by
  cases c with
  | hp0 => exact .quiet (ownerProgramDone_quiet _ _ s)
  | hp1 => exact .quiet (ownerProgramDone_quiet _ _ s)
  | log => exact logProgramDone_moves _ s
  | work => exact .quiet (copyProgramDone_quiet nofun)

theorem eraseTimedOut_moves (e : FlashErase) (s : State) : Moves short s (eraseTimedOut e s) := by
  unfold eraseTimedOut
  cases e.client with
  | hp0 => exact .quiet (ownerEraseDone_quiet _ _ _ s)
  | hp1 => exact .quiet (ownerEraseDone_quiet _ _ _ s)
  | log => exact areaStepDone_moves _ _ s
  | work => exact .quiet .refl

end

/-! ### Every command -/

/-- R125, R126: the ports have left HELD and IMAGE_OK is set; the held requests are still to be taken. -/
def served (s : State) : State :=
  (releasePort .hp1 (releasePort .hp0 (s.setSeq { s.seq with phase := .serving }))).setImage
    { s.image with imageOk := imageOkAtServing s }

/-- What four commands do before their atomic updates: the straps are latched, a replay or an initialisation begins, or the
ports leave HELD at SERVING. -/
inductive First : Instr → State → State → Prop
  | straps (pins : StrapPins) (s : State) : s.seq.inReset = true →
      First (.partResetEnd pins) s
        (s.setSeq { s.seq with inReset := false, straps := latchStraps pins, wait := .polling 0 })
  | scan (s : State) : atPhase s .scan = true → First .scan s (s.setLog { s.log with replay := some (.heads []) })
  | init (s : State) : atPhase s .init = true → First .init s (s.setLog { s.log with initStep := some .erase })
  | serving (release : Release) (s : State) : s.seq.phase = .check → s.seq.work = .ended →
      First (.serving release) s (served s)

section
variable {s t : State}

theorem execFlashReady_quiet (h : execFlashReady s = .next t) : Quiet s.shortRead s t := by
  unfold execFlashReady at h
  (repeat' split at h) <;> cases h
  · exact (Change.seq _ (by rfl)).quiet
  all_goals exact .refl

theorem execFlashWaitTimeout_quiet (h : execFlashWaitTimeout s = .next t) : Quiet s.shortRead s t := by
  unfold execFlashWaitTimeout at h
  (repeat' split at h) <;> cases h
  · exact (Change.seq _ (by rfl)).quiet.trans (Change.fault _ (by decide) (by decide)).quiet
  all_goals exact .refl

theorem execStartUpFlashResetComplete_quiet {left : Remains} (h : execStartUpFlashResetComplete left s = .next t) :
    Quiet s.shortRead s t := by
  unfold execStartUpFlashResetComplete at h
  split at h <;> cases h
  · refine ((Change.mem _ none fun hwf => ?_).quiet.trans (Change.seq _ (by rfl)).quiet).trans (enterPhase_quiet _ _)
    split
    · exact memLeftover_wf _ _ hwf
    · exact hwf
  all_goals exact .refl

theorem execReplayReadComplete_moves (h : execReplayReadComplete s = .next t) : Moves s.shortRead s t := by
  unfold execReplayReadComplete at h
  split at h <;> cases h
  · next hr => exact (finishRead_calm hr).moves (replayTake_moves _ _)
  · exact .quiet .refl

theorem execTrialStep_quiet (h : execTrialStep s = .next t) : Quiet s.shortRead s t := by
  unfold execTrialStep at h
  split at h <;> cases h
  · exact trialStep_quiet s
  · exact .refl

theorem execCheck_quiet (h : execCheck s = .next t) : Quiet s.shortRead s t := by
  unfold execCheck at h
  (repeat' split at h) <;> cases h
  · exact (Change.seq _ (by rfl)).quiet
  · exact (Change.seq _ (by rfl)).quiet.trans (startHeader_quiet _ _)
  · exact .refl

theorem execNextChunk_quiet {p : Port} {clocks : Clocking} (h : execNextChunk p clocks s = .next t) :
    Quiet s.shortRead s t := by
  unfold execNextChunk at h
  dsimp only at h
  split at h <;> cases h
  · exact (clockBytes_quiet _ _ s).trans (formChunk_quiet _ _)
  · exact clockBytes_quiet _ _ s

theorem execIdleTimerExpiry_quiet (h : execIdleTimerExpiry s = .next t) : Quiet s.shortRead s t := by
  unfold execIdleTimerExpiry at h
  split at h <;> cases h
  · exact abandonSession_quiet _ s
  · exact .refl

theorem execEraseSuspended_quiet (h : execEraseSuspended s = .next t) : Quiet s.shortRead s t := by
  unfold execEraseSuspended at h
  split at h
  · next e he =>
    split at h
    · next hc => exact (Change.suspended e (eraseRunning_some he).1 hc).quiet.trans (grantNext_quiet h)
    · cases h
      exact .refl
  · cases h
    exact .refl

/-- A flash reset ends the operation that has reached its limit. -/
theorem startFlashReset_calm {x : State} {c : Client} (h : Change s.shortRead s (startFlashReset x))
    (hp : x.seq = s.seq) (hs : ∀ d, x.flash.slot d = (s.flash.setSlot c .empty).slot d) :
    Calm s.shortRead s (startFlashReset x) :=
  calm_of_slotEmptied (c := c) h (by simp [hp]) fun d => (slot_congr rfl rfl rfl rfl d).trans (hs d)

theorem execOperationTimeout_moves {left : Remains} (h : execOperationTimeout left s = .next t) :
    Moves s.shortRead s t := by
  unfold execOperationTimeout at h
  cases htr : s.flash.transfer with
  | some x =>
    simp only [htr] at h
    cases ha : x.access with
    | program a data =>
      simp only [ha] at h
      split at h <;> cases h
      · exact (startFlashReset_calm (.programTimeout x a data left htr ha) (by simp)
          fun d => slot_congr rfl rfl rfl rfl d).moves (programTimedOut_moves _ _)
      · exact .quiet .refl
    | read a n => simp only [ha] at h; cases h; exact .quiet .refl
    | sectorErase a => simp only [ha] at h; cases h; exact .quiet .refl
    | blockErase a => simp only [ha] at h; cases h; exact .quiet .refl
  | none =>
    simp only [htr] at h
    cases her : s.flash.erase with
    | none => simp only [her] at h; cases h; exact .quiet .refl
    | some e =>
      simp only [her] at h
      split at h <;> cases h
      · exact (startFlashReset_calm (.eraseTimeout e left htr her) (by simp)
          fun d => slot_congr rfl rfl rfl rfl d).moves (eraseTimedOut_moves _ _)
      · exact .quiet .refl

theorem execHostChunkReadComplete_quiet {p : Port} {x : ChunkEnd} (h : execHostChunkReadComplete p x s = .next t) :
    Quiet s.shortRead s t := by
  unfold execHostChunkReadComplete at h
  split at h <;> cases h
  · next hr => exact finishReadThen_quiet hr fun _ => hostChunkThen_quiet _ _ _ _
  · exact .refl

theorem ownerEraseRunning_some {p : Port} {e : FlashErase} (h : ownerEraseRunning s = some (p, e)) :
    s.flash.eraseRunning = some e ∧ clientPort e.client = some p := by
  unfold ownerEraseRunning at h
  cases he : s.flash.eraseRunning with
  | none => simp [he] at h
  | some e' =>
    simp only [he, Option.map_eq_some_iff] at h
    obtain ⟨q, hq, hqe⟩ := h
    cases hqe
    exact ⟨rfl, hq⟩

theorem execOpeningEraseComplete_quiet {r : FlashReport} (h : execOpeningEraseComplete r s = .next t) :
    Quiet s.shortRead s t := by
  unfold execOpeningEraseComplete at h
  (repeat' split at h) <;> cases h
  · next hrun _ => exact (finishErase_calm _ (ownerEraseRunning_some hrun).1).quiet.trans (openingDone_quiet _ _ _ _)
  all_goals exact .refl

theorem execShadowSectorEraseComplete_quiet {r : FlashReport} (h : execShadowSectorEraseComplete r s = .next t) :
    Quiet s.shortRead s t := by
  unfold execShadowSectorEraseComplete at h
  (repeat' split at h) <;> cases h
  · next hrun _ => exact (finishErase_calm _ (ownerEraseRunning_some hrun).1).quiet.trans (sectorEraseDone_quiet _ _ _ _)
  all_goals exact .refl

theorem execShadowBlockEraseComplete_quiet {r : FlashReport} (h : execShadowBlockEraseComplete r s = .next t) :
    Quiet s.shortRead s t := by
  unfold execShadowBlockEraseComplete at h
  (repeat' split at h) <;> cases h
  · next hrun _ => exact (finishErase_calm _ (ownerEraseRunning_some hrun).1).quiet.trans (blockEraseDone_quiet _ _ _ _)
  all_goals exact .refl

theorem execOwnerProgramComplete_quiet {r : FlashReport} (h : execOwnerProgramComplete r s = .next t) :
    Quiet s.shortRead s t := by
  unfold execOwnerProgramComplete at h
  (repeat' split at h) <;> cases h
  · next hrun _ _ _ => exact (finishProgram_calm _ hrun).quiet.trans (ownerProgramDone_quiet _ _ _)
  all_goals exact .refl

theorem execCheckChunkReadComplete_quiet {nextFirst : Bool} (h : execCheckChunkReadComplete nextFirst s = .next t) :
    Quiet s.shortRead s t := by
  unfold execCheckChunkReadComplete at h
  split at h <;> cases h
  · next hr => exact finishReadThen_quiet hr fun _ => chunkTaken_quiet _ _ _
  · exact .refl

theorem execCheckRangeResult_quiet (h : execCheckRangeResult s = .next t) : Quiet s.shortRead s t := by
  unfold execCheckRangeResult at h
  (repeat' split at h) <;> cases h
  · exact (Change.check _ _).quiet.trans (rangeResult_quiet _ _ _)
  all_goals exact .refl

theorem execDescriptorReadComplete_quiet {nextFirst : Bool} (h : execDescriptorReadComplete nextFirst s = .next t) :
    Quiet s.shortRead s t := by
  unfold execDescriptorReadComplete at h
  (repeat' split at h) <;> cases h
  · next hr _ _ _ => exact finishReadThen_quiet hr fun _ => startSegmentRange_quiet _ _ _ _ _
  all_goals exact .refl

theorem readFlash_length (s : State) (a n : Nat) : (readFlash s a n).length = n := by
  unfold readFlash
  split <;> simp

theorem execCopyReadComplete_quiet (h : execCopyReadComplete s = .next t) : Quiet s.shortRead s t := by
  unfold execCopyReadComplete at h
  (repeat' split at h) <;> cases h
  · next cur a n hcur hr hfill =>
    exact (finishRead_quiet hr).trans (copyReadDone_quiet (by simpa using hcur) (by simpa using hfill.1)
      fun hshort => (readFlash_length s a n).symm ▸ hshort a n hr)
  all_goals exact .refl

theorem execCopyProgramComplete_quiet {r : FlashReport} (h : execCopyProgramComplete r s = .next t) :
    Quiet s.shortRead s t := by
  unfold execCopyProgramComplete at h
  (repeat' split at h) <;> cases h
  · next hrun hfill =>
    exact (finishProgram_calm _ hrun).quiet.trans (copyProgramDone_quiet fun _ => by simpa using hfill.2)
  all_goals exact .refl

theorem execAppendWrite_moves (h : execAppendWrite s = .next t) : Moves s.shortRead s t := by
  unfold execAppendWrite at h
  (repeat' split at h) <;> cases h
  · exact startAppend_moves _ s
  all_goals exact .quiet .refl

theorem logProgramInFlight_some {a : Nat} {data : List Byte} (h : logProgramInFlight s = some (a, data)) :
    s.flash.programInFlight = some (.log, a, data) := by
  unfold logProgramInFlight at h
  split at h
  · next hp =>
    cases h
    exact hp
  · cases h

theorem execRecordProgramComplete_moves {r : FlashReport} (h : execRecordProgramComplete r s = .next t) :
    Moves s.shortRead s t := by
  unfold execRecordProgramComplete at h
  (repeat' split at h) <;> cases h
  · next hrun _ => exact (finishProgram_calm _ (logProgramInFlight_some hrun)).moves (recordDone_moves _ _)
  all_goals exact .quiet .refl

theorem execReadBackComplete_moves (h : execReadBackComplete s = .next t) : Moves s.shortRead s t := by
  unfold execReadBackComplete at h
  (repeat' split at h) <;> cases h
  · next hr _ => exact (finishRead_calm hr).moves (readBackDone_moves _ _)
  all_goals exact .quiet .refl

theorem execMapAreaEraseComplete_moves {r : FlashReport} (h : execMapAreaEraseComplete r s = .next t) :
    Moves s.shortRead s t := by
  unfold execMapAreaEraseComplete at h
  (repeat' split at h) <;> cases h
  · next hrun _ => exact (finishErase_calm _ hrun).moves (areaStepDone_moves _ _ _)
  all_goals exact .quiet .refl

theorem execAreaHeaderProgramComplete_moves {r : FlashReport} (h : execAreaHeaderProgramComplete r s = .next t) :
    Moves s.shortRead s t := by
  unfold execAreaHeaderProgramComplete at h
  (repeat' split at h) <;> cases h
  · next hrun _ => exact (finishProgram_calm _ (logProgramInFlight_some hrun)).moves (areaStepDone_moves _ _ _)
  all_goals exact .quiet .refl

theorem execBaseProgramComplete_moves {r : FlashReport} (h : execBaseProgramComplete r s = .next t) :
    Moves s.shortRead s t := by
  unfold execBaseProgramComplete at h
  (repeat' split at h) <;> cases h
  · next hrun _ => exact (finishProgram_calm _ (logProgramInFlight_some hrun)).moves (areaStepDone_moves _ _ _)
  all_goals exact .quiet .refl

theorem execSwitchTakesEffect_moves (h : execSwitchTakesEffect s = .next t) : Moves s.shortRead s t := by
  unfold execSwitchTakesEffect at h
  split at h <;> cases h
  · exact switchEffect_moves s
  · exact .quiet .refl

/-- What a command can do. -/
def Does (c : Instr) (s t : State) : Prop :=
  Moves s.shortRead s t ∨ ∃ a, First c s a ∧ Quiet s.shortRead a t

theorem execPartResetEnd_does {pins : StrapPins} (h : execPartResetEnd pins s = .next t) :
    Does (.partResetEnd pins) s t := by
  unfold execPartResetEnd at h
  split at h <;> cases h
  · exact .inr ⟨_, .straps pins s ‹_›, .refl⟩
  · exact .inl (.quiet .refl)

theorem execScan_does (h : execScan s = .next t) : Does .scan s t := by
  unfold execScan at h
  split at h <;> cases h
  · refine .inr ⟨_, .scan s ‹_›, ?_⟩
    exact (Change.seq (s := s.setLog { s.log with replay := some (.heads []) }) { s.seq with work := .running }
      rfl).quiet.trans (placeRead_quiet _ _ _ _)
  · exact .inl (.quiet .refl)

theorem execInit_does (h : execInit s = .next t) : Does .init s t := by
  unfold execInit at h
  split at h <;> cases h
  · refine .inr ⟨_, .init s ‹_›, ((Change.seq (s := s.setLog { s.log with initStep := some .erase })
      { s.seq with work := .running } rfl).quiet.trans (Change.place _ _ fun _ _ => .inr ?_).quiet)⟩
    exact writeInPlace_area .zero 0 (by simp [positionAddr, Access.addr]) (by simp [Access.length, Config.segmentSize])
  · exact .inl (.quiet .refl)

theorem execServing_does {release : Release} (h : execServing release s = .next t) : Does (.serving release) s t := by
  unfold execServing at h
  split at h <;> cases h
  · next hph =>
    exact .inr ⟨served s, .serving release s hph.1 hph.2, (takeHeld_quiet _ _ _).trans (takeHeld_quiet _ _ _)⟩
  · exact .inl (.quiet .refl)

/-- What every command but PART_RESET can do. -/
theorem exec_does {c : Instr} (hc : c ≠ .partReset) (h : exec c s = .next t) : Does c s t := by
  have hmoves (m : Moves s.shortRead s t) : Does c s t := .inl m
  have hquiet (q : Quiet s.shortRead s t) : Does c s t := .inl (.quiet q)
  have harrive (p : Port) (r : HostRequest) (heq : Host.Outcome.next (arrive p r s) = exec c s) : Does c s t := by
    rw [h] at heq
    cases heq
    exact hquiet (arrive_quiet p r s)
  cases c with
  | partReset => exact absurd rfl hc
  | partResetEnd pins => exact execPartResetEnd_does h
  | flashReady => exact hquiet (execFlashReady_quiet h)
  | flashWaitTimeout => exact hquiet (execFlashWaitTimeout_quiet h)
  | startUpFlashResetComplete left => exact hquiet (execStartUpFlashResetComplete_quiet h)
  | scan => exact execScan_does h
  | replayReadComplete => exact hmoves (execReplayReadComplete_moves h)
  | init => exact execInit_does h
  | trialStep => exact hquiet (execTrialStep_quiet h)
  | check => exact hquiet (execCheck_quiet h)
  | serving release => exact execServing_does h
  | arrayRead p addr clocks => exact harrive p (.arrayRead addr clocks) rfl
  | nextChunk p clocks => exact hquiet (execNextChunk_quiet h)
  | transferEnd p clocks =>
    cases h
    exact hquiet ((clockBytes_quiet _ _ s).trans (endTransfer_quiet _ _))
  | pageProgram p addr data => exact harrive p (.pageProgram addr data) rfl
  | sectorErase p addr => exact harrive p (.sectorErase addr) rfl
  | segmentErase p addr => exact harrive p (.segmentErase addr) rfl
  | startCommit p => exact harrive p (controlProgram .startCommit) rfl
  | abandon p => exact harrive p (controlProgram .abandon) rfl
  | accept p => exact harrive p (controlProgram .accept) rfl
  | revert p => exact harrive p (controlProgram .revert) rfl
  | writeEnable p => exact harrive p .writeEnable rfl
  | writeDisable p => exact harrive p .writeDisable rfl
  | statusRead p clocks => exact harrive p (.statusRead clocks) rfl
  | extendedStatusRead p clocks => exact harrive p (.extendedStatusRead clocks) rfl
  | identRead p clocks => exact harrive p (.identRead clocks) rfl
  | softReset p => exact harrive p .softReset rfl
  | unknownCode p code clocks => exact harrive p (.unknownCode code clocks) rfl
  | incompleteRequest p sent =>
    cases h
    exact hquiet .refl
  | heldRequestForgotten p =>
    cases h
    exact hquiet (forgetHeld_quiet p s)
  | idleTimerExpiry => exact hquiet (execIdleTimerExpiry_quiet h)
  | accessGrant => exact hquiet (grantNext_quiet h)
  | eraseSuspended => exact hquiet (execEraseSuspended_quiet h)
  | operationTimeout left => exact hmoves (execOperationTimeout_moves h)
  | flashResetComplete =>
    cases h
    exact hquiet Change.flashReset.quiet
  | hostChunkReadComplete p chunkEnd => exact hquiet (execHostChunkReadComplete_quiet h)
  | openingEraseComplete r => exact hquiet (execOpeningEraseComplete_quiet h)
  | shadowSectorEraseComplete r => exact hquiet (execShadowSectorEraseComplete_quiet h)
  | shadowBlockEraseComplete r => exact hquiet (execShadowBlockEraseComplete_quiet h)
  | ownerProgramComplete r => exact hquiet (execOwnerProgramComplete_quiet h)
  | checkChunkReadComplete nextFirst => exact hquiet (execCheckChunkReadComplete_quiet h)
  | checkRangeResult => exact hquiet (execCheckRangeResult_quiet h)
  | descriptorReadComplete nextFirst => exact hquiet (execDescriptorReadComplete_quiet h)
  | copyReadComplete => exact hquiet (execCopyReadComplete_quiet h)
  | copyProgramComplete r => exact hquiet (execCopyProgramComplete_quiet h)
  | appendWrite => exact hmoves (execAppendWrite_moves h)
  | recordProgramComplete r => exact hmoves (execRecordProgramComplete_moves h)
  | readBackComplete => exact hmoves (execReadBackComplete_moves h)
  | mapAreaEraseComplete r => exact hmoves (execMapAreaEraseComplete_moves h)
  | areaHeaderProgramComplete r => exact hmoves (execAreaHeaderProgramComplete_moves h)
  | baseProgramComplete r => exact hmoves (execBaseProgramComplete_moves h)
  | switchTakesEffect => exact hmoves (execSwitchTakesEffect_moves h)

end

end Sys2Proof.Machine
end

section
/-!
PROOF of O16, O17, O18, O21 and O22: invariants of a step. Each is kept by every atomic update, by a jump, by what a command
does first, by a part reset and by one ms (`step_keeps`).
-/

namespace Sys2Proof.Machine

/-! ### Invariants of a step -/

/-- R114: the state after PART_RESET. -/
def afterPartReset (s : State) : State :=
  { State.reset with pending := s.pending, mem := s.mem, leftover := leftBehind s, freeCount := s.freeCount }

theorem exec_partReset (s : State) : exec .partReset s = .next (afterPartReset s) := rfl

section
variable {short : Prop} {s t : State} {P : State → Prop}

theorem Quiet.keeps (hchange : ∀ {s t}, Change short s t → P s → P t) (h : Quiet short s t) (hs : P s) : P t := by
  induction h with
  | refl => exact hs
  | tail _ hc ih => exact hchange hc ih

theorem Moves.keeps (hchange : ∀ {s t}, Change short s t → P s → P t) (hjump : ∀ {s t}, Jump s t → P s → P t)
    (h : Moves short s t) (hs : P s) : P t := by
  cases h with
  | quiet q => exact q.keeps hchange hs
  | jump a b hc hj hq => exact hq.keeps hchange (hjump hj (hc.quiet.keeps hchange hs))

/-- A property that every part of a step keeps is kept by the step. -/
theorem step_keeps (hchange : ∀ {short s t}, Change short s t → P s → P t) (hjump : ∀ {s t}, Jump s t → P s → P t)
    (hfirst : ∀ {c s t}, First c s t → P s → P t) (hreset : ∀ s, P s → P (afterPartReset s))
    (htime : ∀ s, P s → P (passTime s)) (hpending : ∀ s q, P s → P (s.withPending q)) (hs : P s)
    (h : step s = .next t) : P t := by
  unfold step at h
  split at h
  · cases h
    exact htime s hs
  · next c rest _ =>
    by_cases hc : c = .partReset
    · subst hc
      rw [exec_partReset] at h
      cases h
      exact hreset _ (hpending s rest hs)
    · rcases exec_does hc h with hm | ⟨a, hf, hq⟩
      · exact hm.keeps hchange hjump (hpending s rest hs)
      · exact hq.keeps hchange (hfirst hf (hpending s rest hs))

end

/-! ### The flash contents (O16) -/

section
variable {short : Prop} {s t : State} {c : Instr}

theorem Change.mem_wf (h : Change short s t) (hs : Memory.wf s.mem = true) : Memory.wf t.mem = true := by
  cases h with
  | mem m o hm => exact hm hs
  | endProgram c a data left _ => exact memProgram_wf a data left hs
  | endErase e left _ => exact memErase_wf _ _ left hs
  | programTimeout t a data left _ _ => exact memProgram_wf a data left hs
  | eraseTimeout e left _ _ => exact memErase_wf _ _ left hs
  | _ => simpa using hs

theorem Jump.mem_wf (h : Jump s t) (hs : Memory.wf s.mem = true) : Memory.wf t.mem = true := by
  cases h <;> simpa using hs

theorem First.mem_wf (h : First c s t) (hs : Memory.wf s.mem = true) : Memory.wf t.mem = true := by
  cases h <;> simpa [served] using hs

/-- Settles O16: only the end of a program or an erase and the start-up flash reset write the flash, each in canonical form. -/
theorem flashContentsStayCanonical : Obligations.FlashContentsStayCanonical := by
  unfold Obligations.FlashContentsStayCanonical
  exact fun s t hs h => step_keeps (P := fun s => Memory.wf s.mem = true) Change.mem_wf Jump.mem_wf First.mem_wf
    (fun _ hs => hs) (fun _ hs => hs) (fun _ _ hs => hs) hs h

/-! ### The map (O17) -/

theorem mapSound_iff (m : SegmentMap) : m.sound = true ↔ m.entries.length = 255 ∧ ∀ e ∈ m.entries, e.sound = true := by
  simp only [SegmentMap.sound, Bool.and_eq_true, decide_eq_true_eq, List.all_eq_true]
  rfl

theorem EntriesKept.length {es es' : List MapEntry} (h : EntriesKept es es') : es'.length = es.length := by
  simpa using congrArg List.length h.banks

theorem mem_mapEntriesFrom {f : Nat → MapEntry → MapEntry} : ∀ {es : List MapEntry} {k : Nat} {e : MapEntry},
    e ∈ mapEntriesFrom k f es → ∃ j, ∃ x ∈ es, e = f j x
  | [], _, _, h => by simp [mapEntriesFrom] at h
  | x :: xs, k, e, h => by
    rcases List.mem_cons.mp h with rfl | h
    · exact ⟨k, x, by simp, rfl⟩
    · obtain ⟨j, y, hy, rfl⟩ := mem_mapEntriesFrom h
      exact ⟨j, y, by simp [hy], rfl⟩

theorem flip_sound (r : SwitchRequester) {e : MapEntry} (h : e.sound = true) : (e.flip r).sound = true := by
  cases r with
  | commitEngine => simp [MapEntry.flip, MapEntry.toStable, MapEntry.sound]
  | imageState => exact h

theorem Change.map_sound (h : Change short s t) (hs : s.map.sound = true) : t.map.sound = true := by
  rw [mapSound_iff] at hs ⊢
  cases h with
  | entries es he => exact ⟨he.length.trans hs.1, he.sound hs.2⟩
  | _ => simpa using hs

theorem Jump.map_sound (h : Jump s t) (hs : s.map.sound = true) : t.map.sound = true := by
  rw [mapSound_iff] at hs ⊢
  cases h with
  | switch sw i _ =>
    refine ⟨(mapEntriesFrom_length _ _ _).trans hs.1, fun e he => ?_⟩
    obtain ⟨j, x, hx, rfl⟩ := mem_mapEntriesFrom he
    split
    · exact flip_sound _ (hs.2 x hx)
    · exact hs.2 x hx
  | handOver sm _ =>
    refine ⟨(mapEntriesFrom_length _ _ _).trans hs.1, fun e he => ?_⟩
    obtain ⟨j, x, hx, rfl⟩ := mem_mapEntriesFrom he
    exact hs.2 x hx

theorem First.map_sound (h : First c s t) (hs : s.map.sound = true) : t.map.sound = true := by
  cases h <;> simpa [served] using hs

theorem reset_map_sound : State.reset.map.sound = true := by
  refine (mapSound_iff _).mpr ⟨List.length_replicate, fun e he => ?_⟩
  rw [List.eq_of_mem_replicate he]
  rfl

/-- Settles O17: an update of the entries keeps their number and each entry sound, and so does a switch. -/
theorem mapStaysSound : Obligations.MapStaysSound := by
  unfold Obligations.MapStaysSound
  exact fun s t hs h => step_keeps (P := fun s => s.map.sound = true) Change.map_sound Jump.map_sound First.map_sound
    (fun _ _ => reset_map_sound) (fun _ hs => hs) (fun _ _ hs => hs) hs h

/-! ### The Flash Port (O18) -/

theorem Change.flashSound (h : Change short s t) (hs : FlashSound s.flash) : FlashSound t.flash := by
  cases h with
  | place c a _ => exact flashSound_place hs c a
  | withdraw p => exact flashSound_withdraw hs _
  | grant c a hc => exact flashSound_grant hs c a (choice_some hc).1 (choice_some hc).2
  | endRead c a n hr => exact flashSound_endRead hs hr
  | look => exact flashSound_lookAfterRead hs
  | endProgram c a data left hp =>
    obtain ⟨x, hx, rfl, _⟩ := programInFlight_some hp
    exact flashSound_endTransfer hs hx
  | endErase e left he =>
    obtain ⟨he, hne⟩ := eraseRunning_some he
    refine flashSound_endErase hs he ?_
    cases hx : s.flash.transfer with
    | none => rfl
    | some x => exact absurd ((hs.tr x hx).2.2.2 e he) hne
  | programTimeout x a data left hx ha =>
    refine flashSound_resetting (flashSound_endTransfer hs hx) true fun _ => ⟨rfl, ?_⟩
    rcases (hs.tr x hx).2.2.1 with ⟨b, n, hread⟩ | ⟨_, hnone⟩
    · rw [ha] at hread
      cases hread
    · exact (setSlot_erase ..).trans hnone
  | eraseTimeout e left hx he =>
    exact flashSound_resetting (flashSound_endErase hs he hx) true fun _ => ⟨(setSlot_transfer ..).trans hx, rfl⟩
  | flashReset => exact flashSound_resetting hs false nofun
  | suspended e he hc =>
    have hlt := (hs.er e he).2.2.2 hc
    exact flashSound_settle (flashSound_condition hs he .suspended _ hlt nofun (.inr rfl))
  | _ => simpa using hs

theorem Jump.flash_eq (h : Jump s t) : t.flash = s.flash := by
  cases h <;> simp

theorem First.flash_eq (h : First c s t) : t.flash = s.flash := by
  cases h <;> simp [served]

theorem flashSound_reset : FlashSound FlashPort.reset := (flashSound_iff _).mp (by decide)

theorem flashSound_tick {f : FlashPort} (h : FlashSound f) :
    FlashSound { f with transfer := f.transfer.map FlashTransfer.tick, erase := f.erase.map FlashErase.tick } := by
  have htr (x : FlashTransfer) : x.tick.client = x.client ∧ x.tick.access = x.access := by
    unfold FlashTransfer.tick
    split <;> exact ⟨rfl, rfl⟩
  have her (e : FlashErase) : e.tick.client = e.client ∧ e.tick.access = e.access ∧ e.tick.suspends = e.suspends ∧
      e.tick.condition = e.condition := by
    unfold FlashErase.tick
    split <;> exact ⟨rfl, rfl, rfl, rfl⟩
  have hslot (c : Client) : ({ f with
      transfer := f.transfer.map FlashTransfer.tick, erase := f.erase.map FlashErase.tick } : FlashPort).slot c =
      f.slot c := slot_congr rfl rfl rfl rfl c
  refine ⟨fun c a hc => ?_, fun x hx => ?_, fun e he => ?_⟩
  · rcases h.slots c a ((hslot c).symm.trans hc) with ⟨x, hx, hcl, ha⟩ | ⟨e, he, hcl, ha⟩
    · exact .inl ⟨x.tick, by simp [hx], (htr x).1.trans hcl, (htr x).2.trans ha⟩
    · exact .inr ⟨e.tick, by simp [he], (her e).1.trans hcl, (her e).2.1.trans ha⟩
  · obtain ⟨y, hy, rfl⟩ := Option.map_eq_some_iff.mp hx
    obtain ⟨h1, h2, h3, h4⟩ := h.tr y hy
    rw [hslot, (htr y).1, (htr y).2]
    refine ⟨h1, h2, ?_, fun e he => ?_⟩
    · rcases h3 with h3 | ⟨h3, hn⟩
      · exact .inl h3
      · exact .inr ⟨h3, by simp [hn]⟩
    · obtain ⟨e', he', rfl⟩ := Option.map_eq_some_iff.mp he
      exact (her e').2.2.2.trans (h4 e' he')
  · obtain ⟨e', he', rfl⟩ := Option.map_eq_some_iff.mp he
    rw [hslot, (her e').1, (her e').2.1, (her e').2.2.1, (her e').2.2.2]
    exact h.er e' he'

/-- Settles O18: every update of the Flash Port keeps `FlashSound`. -/
theorem flashPortStaysSound : Obligations.FlashPortStaysSound := by
  unfold Obligations.FlashPortStaysSound
  intro s t hs h
  rw [flashSound_iff] at hs ⊢
  exact step_keeps (P := fun s => FlashSound s.flash) Change.flashSound (fun hj hs => hj.flash_eq ▸ hs)
    (fun hf hs => hf.flash_eq ▸ hs) (fun _ _ => flashSound_reset) (fun _ => flashSound_tick) (fun _ _ hs => hs) hs h

/-! ### The lock state of the Log Unit (O21) -/

/-- Section 10.1: LOG_FAULT and LOG_CORRUPT stand with the lock state. -/
theorem logFaultsSound_iff (s : State) :
    s.logFaultsSound = true ↔
      (s.faults.logFault = true ↔ s.log.lock = .faulted) ∧ (s.faults.logCorrupt = true ↔ s.log.lock = .corrupt) := by
  simp only [State.logFaultsSound, Bool.and_eq_true, decide_eq_true_eq]

theorem logCorrupt_of_ok {s : State} (h : s.log.lock = .ok) :
    logCorrupt s = raiseFault .logCorrupt (s.setLog { s.log with lock := .corrupt }) := if_pos h

theorem logCorrupt_of_ne {s : State} (h : s.log.lock ≠ .ok) : logCorrupt s = s := if_neg h

theorem Change.logFaultsSound (h : Change short s t) (hs : s.logFaultsSound = true) : t.logFaultsSound = true := by
  rw [logFaultsSound_iff] at hs ⊢
  cases h with
  | log l hl => simpa [hl.lock] using hs
  | logFail =>
    by_cases hok : s.log.lock = .ok
    · rw [logFail_of_ok hok]
      simpa [hok, FaultSet.add] using hs.2
    · rwa [logFail_of_ne hok]
  | logCorrupt =>
    by_cases hok : s.log.lock = .ok
    · rw [logCorrupt_of_ok hok]
      simpa [hok, FaultSet.add] using hs.1
    · rwa [logCorrupt_of_ne hok]
  | fault m h1 h2 => cases m <;> first | exact hs | contradiction
  | programTimeout _ _ _ _ _ _ => exact hs
  | eraseTimeout _ _ _ _ => exact hs
  | _ => simpa using hs

theorem Jump.logFaultsSound (h : Jump s t) (hs : s.logFaultsSound = true) : t.logFaultsSound = true := by
  cases h with
  | switch sw i _ => exact hs
  | handOver sm _ => exact hs

theorem First.logFaultsSound (h : First c s t) (hs : s.logFaultsSound = true) : t.logFaultsSound = true := by
  rw [logFaultsSound_iff] at hs ⊢
  cases h <;> simpa [served] using hs

/-- Settles O21: the lock state leaves OK together with the raise of its fault, and nothing takes either back. -/
theorem logFaultsMatchTheLockState : Obligations.LogFaultsMatchTheLockState := by
  unfold Obligations.LogFaultsMatchTheLockState
  exact fun s t hs h => step_keeps (P := fun s => s.logFaultsSound = true) Change.logFaultsSound Jump.logFaultsSound
    First.logFaultsSound (fun _ _ => rfl) (fun _ hs => hs) (fun _ _ hs => hs) hs h

/-! ### The append position and the fill cursor (O22) -/

theorem Change.log_sound (h : Change short s t) (hs : s.log.sound = true) : t.log.sound = true := by
  cases h with
  | log l hl => exact hl.sound hs
  | logFail =>
    by_cases hok : s.log.lock = .ok
    · rw [logFail_of_ok hok]
      exact hs
    · rwa [logFail_of_ne hok]
  | logCorrupt =>
    by_cases hok : s.log.lock = .ok
    · rw [logCorrupt_of_ok hok]
      exact hs
    · rwa [logCorrupt_of_ne hok]
  | _ => simpa using hs

theorem Jump.log_sound (h : Jump s t) (hs : s.log.sound = true) : t.log.sound = true := by
  cases h <;> simpa using hs

theorem First.log_sound (h : First c s t) (hs : s.log.sound = true) : t.log.sound = true := by
  cases h with
  | scan _ _ =>
    rw [LogUnit.sound_iff] at hs ⊢
    obtain ⟨h1, h2, h3, _⟩ := hs
    exact ⟨h1, h2, h3, nofun⟩
  | init _ _ => exact hs
  | _ => simpa [served] using hs

theorem Change.commit_sound (h : Change short s t) (hs : s.commit.sound = true) : t.commit.sound = true := by
  cases h with
  | commit c hc => exact hc hs
  | _ => simpa using hs

theorem Jump.commit_sound (h : Jump s t) (hs : s.commit.sound = true) : t.commit.sound = true := by
  cases h <;> simpa using hs

theorem First.commit_sound (h : First c s t) (hs : s.commit.sound = true) : t.commit.sound = true := by
  cases h <;> simpa [served] using hs

/-- Settles O22: the two invariants, each from its own premise. -/
theorem logPositionAndFillCursorStayInRange : Obligations.LogPositionAndFillCursorStayInRange := by
  unfold Obligations.LogPositionAndFillCursorStayInRange
  refine fun s t h => ⟨fun hs => ?log, fun hs => ?commit⟩
  case log =>
    exact step_keeps (P := fun s => s.log.sound = true) Change.log_sound Jump.log_sound First.log_sound
      (fun _ _ => rfl) (fun _ hs => hs) (fun _ _ hs => hs) hs h
  case commit =>
    exact step_keeps (P := fun s => s.commit.sound = true) Change.commit_sound Jump.commit_sound First.commit_sound
      (fun _ _ => rfl) (fun _ hs => hs) (fun _ _ hs => hs) hs h

end

end Sys2Proof.Machine
end

section
/-!
PROOF of O23, O24 and O27. O23 follows the slots: a write that a command places is in place when it is placed, no bank changes
after that, and before a jump nothing is placed. O24 follows the epoch: the atomic updates leave the image in view, and a
switch raises the epoch by one.
-/

namespace Sys2Proof.Machine

section
variable {short : Prop} {s t : State} {c : Instr}

/-! ### Soundness of each port without its held requests -/

/-- The ports, and the pinned-transfer count (R14), apart from held requests. -/
structure PortsFormed (s : State) : Prop where
  port : ∀ p, (s.port p).formed
  pinned : s.map.pinned = s.hp0.pins + s.hp1.pins

theorem setPort_pins (s : State) (p : Port) (q : HostPort) :
    (s.setPort p q).hp0.pins + (s.setPort p q).hp1.pins + (s.port p).pins = s.hp0.pins + s.hp1.pins + q.pins := by
  cases p
  · show q.pins + s.hp1.pins + s.hp0.pins = s.hp0.pins + s.hp1.pins + q.pins
    omega
  · show s.hp0.pins + q.pins + s.hp1.pins = s.hp0.pins + s.hp1.pins + q.pins
    omega

theorem formed_setPort {p : Port} {q : HostPort} (hq : q.formed) (hs : ∀ r, (s.port r).formed) (r : Port) :
    ((s.setPort p q).port r).formed := by
  by_cases h : r = p
  · subst h
    rwa [port_setPort]
  · rw [port_setPort_of_ne h]
    exact hs r

/-- R14: the first chunk of a transfer makes its port one of the pinned ones. -/
theorem pin_formed {q : HostPort} {x : HostTransfer} (e : Word32) (hx : q.transfer = some x) (he : x.epoch = none)
    (hend : x.ended = false) (hq : q.formed) :
    HostPort.formed { q with transfer := some { x with epoch := some e } } ∧
      HostPort.pins { q with transfer := some { x with epoch := some e } } = q.pins + 1 := by
  refine ⟨by simpa [HostPort.formed, hx, hend] using hq, by simp [HostPort.pins, hx, he]⟩

/-- R151: the end of a transfer, with a READ of it granted or not. -/
theorem unpin_formed {q q' : HostPort} {x : HostTransfer} (hx : q.transfer = some x)
    (hq' : q' = { q with transfer := some { x with ended := true, buffer := [], epoch := none } } ∨
      q' = { q with transfer := none, state := .ready }) (hq : q.formed) : q'.formed ∧ q'.pins = 0 := by
  have hst : q.state = .transfer := by simpa [hx] using hq.1
  have hin : q.inFlight = none := by simpa [hst] using hq.2.1
  rcases hq' with rfl | rfl
  · refine ⟨⟨by simp [hst], by simp [hin, hst], by simp [hin], ?_⟩, rfl⟩
    rintro _ ⟨⟩
    exact .inl rfl
  · exact ⟨⟨by simp, by simp [hin], by simp [hin], nofun⟩, rfl⟩

theorem unpin_pinned (x : HostTransfer) (s : State) :
    (unpin x s).map.pinned = s.map.pinned - (if x.epoch.isSome then 1 else 0) := by
  unfold unpin
  split <;> rfl

theorem Change.portsFormed (h : Change short s t) (hs : PortsFormed s) : PortsFormed t := by
  have hport {p : Port} {q : HostPort} {u : State} (hq : q.formed) (hu : ∀ r, u.port r = (s.setPort p q).port r)
      (hpins : u.map.pinned + (s.port p).pins = s.map.pinned + q.pins) : PortsFormed u := by
    have hsum := setPort_pins s p q
    refine ⟨fun r => hu r ▸ formed_setPort hq hs.port r, ?_⟩
    have h0 : u.hp0 = (s.setPort p q).hp0 := hu .hp0
    have h1 : u.hp1 = (s.setPort p q).hp1 := hu .hp1
    have := hs.pinned
    rw [h0, h1]
    omega
  cases h with
  | port p q hk =>
    obtain ⟨hq, hpins⟩ := hk.formed (hs.port p)
    exact hport hq (fun _ => rfl) (by rw [hpins]; simp)
  | pin p x hx he hend =>
    obtain ⟨hq, hpins⟩ := pin_formed s.map.epoch hx he hend (hs.port p)
    refine hport hq (fun r => by cases r <;> rfl) ?_
    rw [hpins]
    show s.map.pinned + 1 + (s.port p).pins = _
    omega
  | unpin p x q hx hend hq' =>
    obtain ⟨hq, hpins⟩ := unpin_formed hx hq' (hs.port p)
    refine hport (p := p) hq (fun r => ?_) ?_
    · by_cases hr : r = p
      · subst hr
        simp
      · rw [port_setPort_of_ne hr, port_setPort_of_ne hr, unpin_port]
    · have hle : (s.port p).pins ≤ s.map.pinned := by
        have := hs.pinned
        cases p <;> simp only [State.port] <;> omega
      have hx' : (s.port p).pins = if x.epoch.isSome then 1 else 0 := by simp [HostPort.pins, hx]
      rw [hpins, setPort_map, unpin_pinned]
      omega
  | mem m o _ => exact ⟨fun p => by cases p <;> first | exact hs.port .hp0 | exact hs.port .hp1, hs.pinned⟩
  | switchAsked sw => exact ⟨fun p => by cases p <;> first | exact hs.port .hp0 | exact hs.port .hp1, hs.pinned⟩
  | logFail =>
    by_cases hok : s.log.lock = .ok
    · rw [logFail_of_ok hok]
      exact ⟨fun p => by simpa using hs.port p, hs.pinned⟩
    · rwa [logFail_of_ne hok]
  | logCorrupt =>
    by_cases hok : s.log.lock = .ok
    · rw [logCorrupt_of_ok hok]
      exact ⟨fun p => by simpa using hs.port p, hs.pinned⟩
    · rwa [logCorrupt_of_ne hok]
  | _ => exact ⟨fun p => by simpa using hs.port p, hs.pinned⟩

theorem Jump.ports_eq (h : Jump s t) : (∀ p, t.port p = s.port p) ∧ t.map.pinned = s.map.pinned := by
  cases h with
  | switch sw i _ => exact ⟨fun p => by cases p <;> rfl, rfl⟩
  | handOver sm _ => exact ⟨fun p => by cases p <;> rfl, rfl⟩

theorem Jump.portsFormed (h : Jump s t) (hs : PortsFormed s) : PortsFormed t := by
  obtain ⟨hp, hm⟩ := h.ports_eq
  refine ⟨fun p => hp p ▸ hs.port p, ?_⟩
  have h0 : t.hp0 = s.hp0 := hp .hp0
  have h1 : t.hp1 = s.hp1 := hp .hp1
  rw [hm, h0, h1]
  exact hs.pinned

/-- R125: a port that leaves HELD is formed. -/
theorem formed_released {q : HostPort} (h : q.formed) :
    HostPort.formed { q with state := if q.state = .held then .ready else q.state } := by
  by_cases hq : q.state = .held
  · simpa [HostPort.formed, hq] using h
  · simpa [HostPort.formed, hq] using h

theorem served_port (s : State) (p : Port) :
    (served s).port p =
      { s.port p with state := if (s.port p).state = .held then .ready else (s.port p).state } := by
  cases p <;> rfl

theorem First.portsFormed (h : First c s t) (hs : PortsFormed s) : PortsFormed t := by
  cases h with
  | serving release _ _ => exact ⟨fun p => served_port s p ▸ formed_released (hs.port p), hs.pinned⟩
  | _ => exact ⟨fun p => by simpa using hs.port p, hs.pinned⟩

theorem portsSound_iff (s : State) :
    s.portsSound = true ↔ PortsFormed s ∧ ∀ p, (s.port p).heldFits := by
  simp only [State.portsSound, Bool.and_eq_true, decide_eq_true_eq, HostPort.sound_iff]
  constructor
  · rintro ⟨⟨⟨h0, h1⟩, h2, h3⟩, h4⟩
    exact ⟨⟨fun p => by cases p <;> assumption, h4⟩, fun p => by cases p <;> assumption⟩
  · rintro ⟨h, hf⟩
    exact ⟨⟨⟨h.port .hp0, hf .hp0⟩, h.port .hp1, hf .hp1⟩, h.pinned⟩

/-! ### Writes lie in a shadow or a map area (O23) -/

/-- What the soundness of the blocks gives the clients that place writes. -/
theorem writersSound_of (hp : PortsFormed s) (hc : s.commit.sound = true) (hl : s.log.sound = true) : s.WritersSound :=
  ⟨hp.port .hp0, hp.port .hp1, hc, hl⟩

theorem settle_slot (f : FlashPort) (d : Client) : f.settle.slot d = f.slot d := by
  unfold FlashPort.settle
  (repeat' split) <;> rfl

theorem settle_slot_erase (f : FlashPort) (x : Option FlashErase) (d : Client) :
    ({ f with erase := x } : FlashPort).settle.slot d = f.slot d :=
  (settle_slot _ d).trans (slot_congr rfl rfl rfl rfl d)

theorem place_slot (c d : Client) (a : Access) (s : State) :
    (place c a s).flash.slot d = s.flash.slot d ∨ (d = c ∧ (place c a s).flash.slot d = .pending a) := by
  show (s.flash.place c a).slot d = _ ∨ (_ ∧ (s.flash.place c a).slot d = _)
  unfold FlashPort.place
  split
  · rw [settle_slot, slot_setSlot_ite]
    by_cases h : d = c
    · exact .inr ⟨h, if_pos h⟩
    · exact .inl (if_neg h)
  · exact .inl rfl

/-- A slot that is set to something not pending holds nothing pending after it. -/
theorem pending_of_setSlot {f : FlashPort} {x : Slot} {d e : Client} {a : Access} (hx : ∀ b, x ≠ .pending b)
    (h : (f.setSlot e x).slot d = .pending a) : f.slot d = .pending a := by
  rw [slot_setSlot_ite] at h
  split at h
  · exact absurd h (hx a)
  · exact h

theorem grant_slot (f : FlashPort) (e d : Client) (x : Access) :
    (f.grant e x).slot d = (f.setSlot e (.granted x)).slot d := by
  unfold FlashPort.grant
  cases x with
  | read => exact slot_congr rfl rfl rfl rfl d
  | program => exact slot_congr rfl rfl rfl rfl d
  | sectorErase => exact (settle_slot _ d).trans (slot_congr rfl rfl rfl rfl d)
  | blockErase => exact (settle_slot _ d).trans (slot_congr rfl rfl rfl rfl d)

/-- What is pending after an update was pending before it, or has just been placed. -/
theorem Change.pending (h : Change short s t) {d : Client} {a : Access} (hd : t.flash.slot d = .pending a) :
    s.flash.slot d = .pending a ∨
      (t.map = s.map ∧ (short → s.WritersSound → a.isRead = true ∨ s.WriteInPlace d a)) := by
  have hend {e : Client} (hs : t.flash.slot d = (s.flash.setSlot e .empty).slot d) : s.flash.slot d = .pending a :=
    pending_of_setSlot (by simp) (hs ▸ hd)
  cases h with
  | place c b hb =>
    rcases place_slot c d b s with hsl | ⟨hdc, hsl⟩
    · exact .inl (hsl ▸ hd)
    · rw [hsl] at hd
      cases hd
      exact .inr ⟨by simp, hdc ▸ hb⟩
  | withdraw p =>
    refine .inl ?_
    have hw : (s.flash.withdraw (portClient p)).slot d = .pending a := hd
    unfold FlashPort.withdraw at hw
    split at hw
    · rw [settle_slot] at hw
      exact pending_of_setSlot (by simp) hw
    · exact hw
  | grant c b _ => exact .inl (pending_of_setSlot (x := .granted b) (by simp) ((grant_slot _ c d b).symm.trans hd))
  | endRead c b n _ => exact .inl (hend (slot_congr rfl rfl rfl rfl d))
  | look => exact .inl ((settle_slot _ d).symm.trans hd)
  | endProgram c b data left _ => exact .inl (hend (slot_congr rfl rfl rfl rfl d))
  | endErase e left _ => exact .inl (hend (slot_congr rfl rfl rfl rfl d))
  | programTimeout x b data left _ _ => exact .inl (hend (slot_congr rfl rfl rfl rfl d))
  | eraseTimeout e left _ _ => exact .inl (hend (slot_congr rfl rfl rfl rfl d))
  | flashReset => exact .inl ((slot_congr rfl rfl rfl rfl d).trans hd)
  | suspended e _ _ => exact .inl ((settle_slot_erase s.flash _ d).symm.trans hd)
  | _ => exact .inl (by simpa using hd)

theorem Change.banks (h : Change short s t) : t.banks = s.banks := by
  cases h with
  | entries es he => exact he.banks
  | _ => simp [State.banks]

/-- Where a write may lie depends on the banks alone. -/
theorem writeInPlace_congr (hb : t.banks = s.banks) {d : Client} {a : Access} (h : s.WriteInPlace d a) :
    t.WriteInPlace d a := by
  rcases h with ⟨hd, seg, off, hseg, haddr, hrest⟩ | h
  · refine .inl ⟨hd, seg, off, hseg, ?_, hrest⟩
    have : (t.entry seg).bank = (s.entry seg).bank := by
      have hb' : t.map.entries.map MapEntry.bank = s.map.entries.map MapEntry.bank := hb
      rw [State.entry, State.entry, entryOf_bank, entryOf_bank, hb']
    rw [haddr, this]
  · exact .inr h

/-- The writers are sound, and each write that was not pending at the beginning of the step is in place. -/
structure WritesFrom (o s : State) : Prop where
  formed : PortsFormed s
  commit : s.commit.sound = true
  log : s.log.sound = true
  writes : ∀ d a, s.flash.slot d = .pending a → a.isRead = false → o.flash.slot d ≠ .pending a → s.WriteInPlace d a

theorem Change.writesFrom {o : State} (hshort : short) (h : Change short s t) (hs : WritesFrom o s) :
    WritesFrom o t := by
  refine ⟨h.portsFormed hs.formed, h.commit_sound hs.commit, h.log_sound hs.log, fun d a hd hr ho => ?_⟩
  rcases h.pending hd with hold | ⟨hmap, hnew⟩
  · exact writeInPlace_congr h.banks (hs.writes d a hold hr ho)
  · rcases hnew hshort (writersSound_of hs.formed hs.commit hs.log) with hread | hw
    · simp [hr] at hread
    · exact writeInPlace_congr h.banks hw

theorem Quiet.writesFrom {o : State} (hshort : short) (h : Quiet short s t) (hs : WritesFrom o s) : WritesFrom o t :=
  h.keeps (Change.writesFrom hshort) hs

/-- Settles O23: the writes placed in a step are in place when they are placed, and the banks stay from then on. -/
theorem writesNeverGoToAnActiveCopy : Obligations.WritesNeverGoToAnActiveCopy := by
  unfold Obligations.WritesNeverGoToAnActiveCopy
  intro c s t hports hcommit hlog hshort h client a ht hr hs
  have hformed : PortsFormed s := ((portsSound_iff s).mp hports).1
  by_cases hc : c = .partReset
  · subst hc
    rw [exec_partReset] at h
    cases h
    cases client <;> cases ht
  have hstart {b : State} (hf : PortsFormed b) (hcom : b.commit.sound = true) (hl : b.log.sound = true)
      (hslots : ∀ d x, b.flash.slot d = .pending x → s.flash.slot d = .pending x) : WritesFrom s b :=
    ⟨hf, hcom, hl, fun d x hd _ hne => absurd (hslots d x hd) hne⟩
  have hwrites : WritesFrom s t := by
    rcases exec_does hc h with hm | ⟨a, hf, hq⟩
    · cases hm with
      | quiet q => exact q.writesFrom hshort (hstart hformed hcommit hlog fun _ _ hd => hd)
      | jump a b hcalm hj hq =>
        refine hq.writesFrom hshort (hstart ?_ ?_ ?_ fun d x hd => hcalm.slots d x (hj.flash_eq ▸ hd))
        · exact hj.portsFormed (hcalm.quiet.keeps Change.portsFormed hformed)
        · exact hj.commit_sound (hcalm.quiet.keeps (P := fun s => s.commit.sound = true) Change.commit_sound hcommit)
        · exact hj.log_sound (hcalm.quiet.keeps (P := fun s => s.log.sound = true) Change.log_sound hlog)
    · exact hq.writesFrom hshort (hstart (hf.portsFormed hformed) (hf.commit_sound hcommit) (hf.log_sound hlog)
        fun d x hd => hf.flash_eq ▸ hd)
  exact hwrites.writes client a ht hr hs

/-! ### The image in view (O24) -/

/-- What only a switch, a replay, an initialisation or SERVING changes of the image in view. -/
structure ImageKept (s t : State) : Prop where
  epoch : t.map.epoch = s.map.epoch
  banks : t.banks = s.banks
  serial : t.image.serial = s.image.serial
  imageOk : t.image.imageOk = s.image.imageOk
  replay : s.log.replay = none → t.log.replay = none
  initStep : s.log.initStep = none → t.log.initStep = none

theorem Change.imageKept (h : Change short s t) : ImageKept s t := by
  refine ⟨?_, h.banks, ?_, ?_, ?_, ?_⟩
  · cases h <;> simp
  · cases h with
    | image i hser _ => exact hser
    | _ => simp
  · cases h with
    | image i _ hok => exact hok
    | _ => simp
  · cases h with
    | log l hl => exact hl.replay
    | _ => simp
  · cases h with
    | log l hl => exact hl.initStep
    | _ => simp

theorem ImageKept.trans {u : State} (h : ImageKept s t) (g : ImageKept t u) : ImageKept s u :=
  ⟨g.epoch.trans h.epoch, g.banks.trans h.banks, g.serial.trans h.serial, g.imageOk.trans h.imageOk,
    fun x => g.replay (h.replay x), fun x => g.initStep (h.initStep x)⟩

theorem Quiet.imageKept (h : Quiet short s t) : ImageKept s t := by
  induction h with
  | refl => exact ⟨rfl, rfl, rfl, rfl, id, id⟩
  | tail _ hc ih => exact ih.trans hc.imageKept

theorem add_one_ne_self (w : Word32) : w + 1 ≠ w := by
  simp

theorem served_imageKept (s : State) :
    (served s).map.epoch = s.map.epoch ∧ (served s).banks = s.banks ∧ (served s).image.serial = s.image.serial :=
  ⟨rfl, rfl, rfl⟩

/-- Settles O24: a jump is either a switch, which raises the epoch, or the hand-over of a replay or an initialisation. -/
theorem imageChangesOnlyAtSwitches : Obligations.ImageChangesOnlyAtSwitches := by
  unfold Obligations.ImageChangesOnlyAtSwitches
  intro c s t hc h
  rcases exec_does hc h with hm | ⟨a, hf, hq⟩
  · cases hm with
    | quiet q =>
      have k := q.imageKept
      exact ⟨.inl k.epoch, fun _ _ _ => ⟨k.banks, k.serial⟩, fun _ _ => k.imageOk, fun _ hne => absurd k.epoch hne⟩
    | jump a b hcalm hj hq =>
      have k := hcalm.quiet.imageKept
      have k' := hq.imageKept
      cases hj with
      | switch sw i hi =>
        have hepoch : t.map.epoch = s.map.epoch + 1 := k'.epoch.trans (congrArg (· + 1) k.epoch)
        have hne : t.map.epoch ≠ s.map.epoch := hepoch ▸ add_one_ne_self _
        exact ⟨.inr hepoch, fun _ _ heq => absurd heq hne, fun _ heq => absurd heq hne,
          fun hserving _ => k'.imageOk.trans (hi (hcalm.phase.trans hserving))⟩
      | handOver sm hre =>
        have hepoch : t.map.epoch = s.map.epoch := (k'.epoch.trans (by simp)).trans k.epoch
        refine ⟨.inl hepoch, fun hr hi _ => ?_, fun _ _ => (k'.imageOk.trans (by simp)).trans k.imageOk,
          fun _ hne => absurd hepoch hne⟩
        rcases hre with hre | hre
        · exact absurd (k.replay hr) hre
        · exact absurd (k.initStep hi) hre
  · have k := hq.imageKept
    have hfirst : a.map.epoch = s.map.epoch ∧ a.banks = s.banks ∧ a.image.serial = s.image.serial := by
      cases hf with
      | serving => exact served_imageKept s
      | _ => exact ⟨rfl, rfl, rfl⟩
    refine ⟨.inl (k.epoch.trans hfirst.1), fun _ _ _ => ⟨k.banks.trans hfirst.2.1, k.serial.trans hfirst.2.2⟩,
      fun hns _ => k.imageOk.trans ?_, fun _ hne => absurd (k.epoch.trans hfirst.1) hne⟩
    cases hf with
    | serving release => exact absurd rfl (hns release)
    | _ => rfl

/-! ### Every command answers (O27) -/

theorem Change.pending_eq (h : Change short s t) : t.pending = s.pending := by
  cases h <;> simp

theorem Jump.pending_eq (h : Jump s t) : t.pending = s.pending := by
  cases h <;> simp

theorem First.pending_eq (h : First c s t) : t.pending = s.pending := by
  cases h <;> simp [served]

theorem Quiet.pending_eq (h : Quiet short s t) : t.pending = s.pending := by
  induction h with
  | refl => rfl
  | tail _ hc ih => exact hc.pending_eq.trans ih

/-- No command changes the queue. -/
theorem exec_pending (h : exec c s = .next t) : t.pending = s.pending := by
  by_cases hc : c = .partReset
  · subst hc
    rw [exec_partReset] at h
    cases h
    rfl
  · rcases exec_does hc h with hm | ⟨a, hf, hq⟩
    · cases hm with
      | quiet q => exact q.pending_eq
      | jump a b hcalm hj hq => exact hq.pending_eq.trans (hj.pending_eq.trans hcalm.quiet.pending_eq)
    · exact hq.pending_eq.trans hf.pending_eq

/-- R128, R133: a grant answers, or the access it would grant does not lie within the physical flash. -/
theorem grantNext_answers (s : State) :
    (∃ t, grantNext s = .next t) ∨
      (grantNext s = .fault .outsideFlash ∧
        ∃ client a, s.flash.slot client = .pending a ∧ 0x2000000 < a.addr + a.length) := by
  unfold grantNext
  cases hch : s.flash.choice with
  | none => exact .inl ⟨_, rfl⟩
  | some x =>
    obtain ⟨client, a⟩ := x
    dsimp only
    split
    · exact .inl ⟨_, rfl⟩
    · next hout =>
      refine .inr ⟨rfl, client, a, (choice_some hch).1, ?_⟩
      have hle : ¬a.addr + a.length ≤ 0x2000000 := fun hle => hout (decide_eq_true hle)
      omega

theorem execEraseSuspended_answers (s : State) :
    (∃ t, execEraseSuspended s = .next t) ∨
      (execEraseSuspended s = .fault .outsideFlash ∧
        ∃ client a, s.flash.slot client = .pending a ∧ 0x2000000 < a.addr + a.length) := by
  unfold execEraseSuspended
  cases s.flash.eraseRunning with
  | none => exact .inl ⟨_, rfl⟩
  | some e =>
    dsimp only
    split
    · rcases grantNext_answers (s.setFlash
        { s.flash with erase := some { e with condition := .suspended, suspends := e.suspends + 1 } }.settle) with
        hn | ⟨hfault, client, a, hsl, hlt⟩
      · exact .inl hn
      · exact .inr ⟨hfault, client, a, (settle_slot_erase s.flash _ client).symm.trans hsl, hlt⟩
    · exact .inl ⟨_, rfl⟩

/-- A command other than the two that grant always answers. -/
theorem exec_answers (s : State) (hg : c ≠ .accessGrant) (he : c ≠ .eraseSuspended) : ∃ t, exec c s = .next t := by
  cases c with
  | accessGrant => exact absurd rfl hg
  | eraseSuspended => exact absurd rfl he
  | _ =>
    simp only [exec,
      execPartReset, execPartResetEnd, execFlashReady, execFlashWaitTimeout, execStartUpFlashResetComplete,
      execScan, execReplayReadComplete, execInit, execTrialStep, execCheck, execServing, execArrayRead,
      execNextChunk, execTransferEnd, execPageProgram, execSectorErase, execSegmentErase, execStartCommit,
      execAbandon, execAccept, execRevert, execWriteEnable, execWriteDisable, execStatusRead,
      execExtendedStatusRead, execIdentRead, execSoftReset, execUnknownCode, execIncompleteRequest,
      execHeldRequestForgotten, execIdleTimerExpiry, execOperationTimeout, execFlashResetComplete,
      execHostChunkReadComplete, execOpeningEraseComplete, execShadowSectorEraseComplete,
      execShadowBlockEraseComplete, execOwnerProgramComplete, execCheckChunkReadComplete,
      execCheckRangeResult, execDescriptorReadComplete, execCopyReadComplete, execCopyProgramComplete,
      execAppendWrite, execRecordProgramComplete, execReadBackComplete, execMapAreaEraseComplete,
      execAreaHeaderProgramComplete, execBaseProgramComplete, execSwitchTakesEffect]
    (repeat' split) <;> exact ⟨_, rfl⟩

/-- Settles O27: every command answers and keeps the queue, but for a grant outside the physical flash. -/
theorem everyCommandAnswers : Obligations.EveryCommandAnswers := by
  unfold Obligations.EveryCommandAnswers
  intro c s
  have hnext : (∃ t, exec c s = .next t) → ∃ t, exec c s = .next t ∧ t.pending = s.pending :=
    fun ⟨t, h⟩ => ⟨t, h, exec_pending h⟩
  by_cases hg : c = .accessGrant
  · subst hg
    rcases grantNext_answers s with h | ⟨h, hslot⟩
    · exact .inl (hnext h)
    · exact .inr ⟨h, .inl rfl, hslot⟩
  · by_cases he : c = .eraseSuspended
    · subst he
      rcases execEraseSuspended_answers s with h | ⟨h, hslot⟩
      · exact .inl (hnext h)
      · exact .inr ⟨h, .inr rfl, hslot⟩
    · exact .inl (hnext (exec_answers s hg he))

end

end Sys2Proof.Machine
end

section
/-!
PROOF of O19 and O26. O19: each update of a port keeps its held requests where they fit; SERVING leaves both ports READY with
requests held, and each port fits again when it has taken its own. O26: a request of a host reaches the slot of its own port
alone (`OnlyHost`); the rest of the statement is what `arrive` keeps.
-/

namespace Sys2Proof.Machine

section
variable {short : Prop} {s t : State} {c : Instr}

/-! ### Held requests (O19) -/

/-- R151: the end of a transfer leaves no request held in READY. -/
theorem unpin_heldFits {q q' : HostPort} {x : HostTransfer} (hx : q.transfer = some x) (hend : x.ended = false)
    (hq' : q' = { q with transfer := some { x with ended := true, buffer := [], epoch := none } } ∨
      q' = { q with transfer := none, state := .ready }) (hq : q.formed) (hf : q.heldFits) : q'.heldFits := by
  have hst : q.state = .transfer := by simpa [hx] using hq.1
  have hnil : q.held = [] := by simpa [HostPort.heldFits, hst, hx, hend] using hf
  rcases hq' with rfl | rfl <;> exact .inl hnil

theorem Change.heldFits (h : Change short s t) (hs : PortsFormed s) {p : Port} (hf : (s.port p).heldFits) :
    (t.port p).heldFits := by
  cases h with
  | port r q hk =>
    by_cases hr : p = r
    · subst hr
      rw [port_setPort]
      exact hk.fits (hs.port p) hf
    · rwa [port_setPort_of_ne hr]
  | pin r x hx he hend =>
    by_cases hr : p = r
    · subst hr
      have hnew : HostPort.heldFits { s.port p with transfer := some { x with epoch := some s.map.epoch } } := by
        simpa [HostPort.heldFits, hx] using hf
      cases p <;> exact hnew
    · cases r <;> cases p <;> first | exact absurd rfl hr | exact hf
  | unpin r x q hx hend hq' =>
    by_cases hr : p = r
    · subst hr
      rw [port_setPort]
      exact unpin_heldFits hx hend hq' (hs.port p) hf
    · rwa [port_setPort_of_ne hr, unpin_port]
  | mem m o _ => cases p <;> exact hf
  | switchAsked sw => cases p <;> exact hf
  | logFail =>
    by_cases hok : s.log.lock = .ok
    · rw [logFail_of_ok hok]
      simpa using hf
    · rwa [logFail_of_ne hok]
  | logCorrupt =>
    by_cases hok : s.log.lock = .ok
    · rw [logCorrupt_of_ok hok]
      simpa using hf
    · rwa [logCorrupt_of_ne hok]
  | _ => simpa using hf

/-- The ports are formed, and the requests that the ports of a set hold fit. -/
structure PortsFit (S : Port → Prop) (s : State) : Prop where
  formed : PortsFormed s
  fits : ∀ p, S p → (s.port p).heldFits

theorem Change.portsFit {S : Port → Prop} (h : Change short s t) (hs : PortsFit S s) : PortsFit S t :=
  ⟨h.portsFormed hs.formed, fun p hp => h.heldFits hs.formed (hs.fits p hp)⟩

theorem Jump.portsFit {S : Port → Prop} (h : Jump s t) (hs : PortsFit S s) : PortsFit S t :=
  ⟨h.portsFormed hs.formed, fun p hp => h.ports_eq.1 p ▸ hs.fits p hp⟩

theorem portsSound_iff_portsFit (s : State) : s.portsSound = true ↔ PortsFit (fun _ => True) s := by
  rw [portsSound_iff]
  exact ⟨fun h => ⟨h.1, fun p _ => h.2 p⟩, fun h => ⟨h.formed, fun p => h.fits p trivial⟩⟩

/-- R125, R151: a port that has taken its held requests holds none where none may be held. -/
theorem takeHeld_portsFit {S : Port → Prop} (p : Port) (clocks : Nat) (hs : PortsFit S s) :
    PortsFit (fun r => S r ∨ r = p) (takeHeld p clocks s) := by
  have hclear : PortsFit (fun r => S r ∨ r = p) (updatePort p (fun q => { q with held := [] }) s) := by
    have hkept : Change True s (updatePort p (fun q => { q with held := [] }) s) :=
      .port p _ (.of_fits rfl rfl rfl fun _ => .inl rfl)
    refine ⟨hkept.portsFormed hs.formed, fun r hr => ?_⟩
    by_cases h : r = p
    · subst h
      rw [updatePort, port_setPort]
      exact .inl rfl
    · exact hkept.heldFits hs.formed (hs.fits r (hr.resolve_right h))
  exact (foldl_takeRequest_quiet (short := True) p _ _).keeps Change.portsFit hclear

theorem exec_serving_portsFit {release : Release} (hs : PortsFit (fun _ => True) s)
    (h : exec (.serving release) s = .next t) : PortsFit (fun _ => True) t := by
  replace h : execServing release s = .next t := h
  unfold execServing at h
  split at h <;> cases h
  · next hph =>
    have hserved : PortsFit (fun _ => False) (served s) :=
      ⟨(First.serving release s hph.1 hph.2).portsFormed hs.formed, nofun⟩
    have hboth := takeHeld_portsFit (otherPort release.first) (releaseClocks release (otherPort release.first))
      (takeHeld_portsFit release.first (releaseClocks release release.first) hserved)
    exact ⟨hboth.formed, fun p _ => hboth.fits p (by cases p <;> cases release.first <;> simp [otherPort])⟩
  · exact hs

theorem pins_le_one (q : HostPort) : q.pins ≤ 1 := by
  unfold HostPort.pins
  (repeat' split) <;> omega

theorem exec_portsFit (hs : PortsFit (fun _ => True) s) (h : exec c s = .next t) : PortsFit (fun _ => True) t := by
  by_cases hc : c = .partReset
  · subst hc
    rw [exec_partReset] at h
    cases h
    exact (portsSound_iff_portsFit _).mp rfl
  · rcases exec_does hc h with hm | ⟨a, hf, hq⟩
    · exact hm.keeps Change.portsFit Jump.portsFit hs
    · cases hf with
      | serving release _ _ => exact exec_serving_portsFit hs h
      | straps pins _ => exact hq.keeps Change.portsFit ⟨⟨fun p => by simpa using hs.formed.port p, hs.formed.pinned⟩,
          fun p hp => by simpa using hs.fits p hp⟩
      | scan _ => exact hq.keeps Change.portsFit ⟨⟨fun p => by simpa using hs.formed.port p, hs.formed.pinned⟩,
          fun p hp => by simpa using hs.fits p hp⟩
      | init _ => exact hq.keeps Change.portsFit ⟨⟨fun p => by simpa using hs.formed.port p, hs.formed.pinned⟩,
          fun p hp => by simpa using hs.fits p hp⟩

/-- Settles O19: `PortsFit` is kept by every command, and a port counts at most once in the pinned-transfer count. -/
theorem portsStaySound : Obligations.PortsStaySound := by
  unfold Obligations.PortsStaySound
  intro s t hs h
  have ht : PortsFit (fun _ => True) t := by
    rw [portsSound_iff_portsFit] at hs
    unfold step at h
    split at h
    · cases h
      exact ⟨⟨hs.formed.port, hs.formed.pinned⟩, hs.fits⟩
    · next rest _ =>
      have hrest : PortsFit (fun _ => True) (s.withPending rest) :=
        ⟨⟨fun p => by simpa using hs.formed.port p, hs.formed.pinned⟩, fun p hp => by simpa using hs.fits p hp⟩
      exact exec_portsFit hrest h
  refine ⟨(portsSound_iff_portsFit t).mpr ht, ?_⟩
  have h0 := pins_le_one t.hp0
  have h1 := pins_le_one t.hp1
  have := ht.formed.pinned
  omega

/-! ### The other port and the other clients (O26) -/

/-- What the host of port p leaves alone: the other port, and everything of the Flash Port but the host slots and the
condition of the erase in progress. -/
structure OnlyHost (p : Port) (s t : State) : Prop where
  other : t.port (otherPort p) = s.port (otherPort p)
  transfer : t.flash.transfer = s.flash.transfer
  pointer : t.flash.pointer = s.flash.pointer
  slotLog : t.flash.slotLog = s.flash.slotLog
  slotWork : t.flash.slotWork = s.flash.slotWork

variable {p : Port}

theorem OnlyHost.refl (p : Port) (s : State) : OnlyHost p s s := ⟨rfl, rfl, rfl, rfl, rfl⟩

theorem OnlyHost.trans {u : State} (h : OnlyHost p s t) (g : OnlyHost p t u) : OnlyHost p s u :=
  ⟨g.other.trans h.other, g.transfer.trans h.transfer, g.pointer.trans h.pointer, g.slotLog.trans h.slotLog,
    g.slotWork.trans h.slotWork⟩

theorem OnlyHost.of_flash_eq (hp : t.port (otherPort p) = s.port (otherPort p)) (hf : t.flash = s.flash) :
    OnlyHost p s t := ⟨hp, by rw [hf], by rw [hf], by rw [hf], by rw [hf]⟩

theorem settle_keeps (f : FlashPort) :
    f.settle.transfer = f.transfer ∧ f.settle.pointer = f.pointer ∧ f.settle.slotLog = f.slotLog ∧
      f.settle.slotWork = f.slotWork := by
  unfold FlashPort.settle
  (repeat' split) <;> exact ⟨rfl, rfl, rfl, rfl⟩

theorem setSlot_host (f : FlashPort) (p : Port) (x : Slot) :
    (f.setSlot (portClient p) x).slotLog = f.slotLog ∧ (f.setSlot (portClient p) x).slotWork = f.slotWork := by
  cases p <;> exact ⟨rfl, rfl⟩

theorem place_onlyHost (p : Port) (a : Access) (s : State) : OnlyHost p s (place (portClient p) a s) := by
  have hkeep := settle_keeps (s.flash.setSlot (portClient p) (.pending a))
  have hslots := setSlot_host s.flash p (.pending a)
  refine ⟨by simp, ?_, ?_, ?_, ?_⟩ <;> simp only [place, setFlash_flash, FlashPort.place] <;> split <;>
    simp [hkeep, hslots]

theorem withdraw_onlyHost (p : Port) (s : State) : OnlyHost p s (s.setFlash (s.flash.withdraw (portClient p))) := by
  have hkeep := settle_keeps (s.flash.setSlot (portClient p) .empty)
  have hslots := setSlot_host s.flash p .empty
  refine ⟨by simp, ?_, ?_, ?_, ?_⟩ <;> simp only [setFlash_flash, FlashPort.withdraw] <;> split <;>
    simp [hkeep, hslots]

theorem updatePort_onlyHost (p : Port) (f : HostPort → HostPort) (s : State) : OnlyHost p s (updatePort p f s) :=
  .of_flash_eq (by simp [updatePort]) (by simp)

theorem giveResult_onlyHost (p : Port) (code : Code) (seg : BitVec 8) (s : State) :
    OnlyHost p s (giveResult p code seg s) :=
  .of_flash_eq (by simp [giveResult, updatePort]) (by simp)

theorem putOut_onlyHost (p : Port) (bytes : List Byte) (s : State) : OnlyHost p s (putOut p bytes s) :=
  updatePort_onlyHost p _ s

theorem refuseBusy_onlyHost (p : Port) (r : HostRequest) (s : State) : OnlyHost p s (refuseBusy p r s) :=
  updatePort_onlyHost p _ s

theorem formChunk_onlyHost (p : Port) (s : State) : OnlyHost p s (formChunk p s) := by
  unfold formChunk
  cases (s.port p).transfer with
  | none => exact .refl p s
  | some x =>
    dsimp only
    split
    · exact place_onlyHost p _ s
    · exact updatePort_onlyHost p _ s

theorem firstChunk_onlyHost (p : Port) (s : State) : OnlyHost p s (firstChunk p s) := by
  unfold firstChunk
  cases (s.port p).transfer with
  | none => exact .refl p s
  | some x =>
    dsimp only
    split
    · refine OnlyHost.trans (.of_flash_eq ?_ (by simp)) (formChunk_onlyHost p _)
      cases p <;> rfl
    · exact .refl p s

theorem deliver_onlyHost (p : Port) (n : Nat) (s : State) : OnlyHost p s (deliver p n s) := by
  unfold deliver
  cases (s.port p).transfer with
  | none => exact .refl p s
  | some x =>
    dsimp only
    split
    · exact .refl p s
    · exact updatePort_onlyHost p _ s

theorem takeArriving_onlyHost (p : Port) (k : Nat) (s : State) : OnlyHost p s (takeArriving p k s) := by
  unfold takeArriving
  cases (s.port p).transfer with
  | none => exact .refl p s
  | some x =>
    dsimp only
    split
    · exact .refl p s
    · exact updatePort_onlyHost p _ s

theorem clockBytes_onlyHost (p : Port) (x : Clocking) (s : State) : OnlyHost p s (clockBytes p x s) :=
  (takeArriving_onlyHost p _ s).trans (deliver_onlyHost p _ _)

theorem endTransfer_onlyHost (p : Port) (s : State) : OnlyHost p s (endTransfer p s) := by
  unfold endTransfer
  cases (s.port p).transfer with
  | none => exact .refl p s
  | some x =>
    dsimp only
    have hunpin (u : State) : OnlyHost p u (unpin x u) := .of_flash_eq (unpin_port x u _) (by simp)
    split
    · exact .refl p s
    · split
      all_goals exact ((withdraw_onlyHost p s).trans (hunpin _)).trans (updatePort_onlyHost p _ _)

theorem openSegment_onlyHost (p : Port) (f : InFlight) (s : State) : OnlyHost p s (openSegment p f s) := by
  unfold openSegment
  dsimp only
  split
  · exact OnlyHost.trans (.of_flash_eq (by simp) (by simp)) (place_onlyHost p _ _)
  · exact .refl p s

theorem beginOpening_onlyHost (p : Port) (f : InFlight) (s : State) : OnlyHost p s (beginOpening p f s) := by
  unfold beginOpening
  split
  · exact openSegment_onlyHost p f s
  · exact .of_flash_eq (by simp [askAppend]) (by simp)

theorem ownerErase_onlyHost (p : Port) (f : InFlight) (s : State) : OnlyHost p s (ownerErase p f s) := by
  have hload : OnlyHost p s (loadTimer s) := .of_flash_eq (by simp [loadTimer]) (by simp)
  cases f with
  | sectorErase a =>
    refine hload.trans ?_
    show OnlyHost p _ (ownerSectorErase p a (loadTimer s))
    unfold ownerSectorErase
    dsimp only
    split
    · exact beginOpening_onlyHost p _ _
    · split
      · exact place_onlyHost p _ _
      · exact OnlyHost.trans (.of_flash_eq (by simp) (by simp)) (giveResult_onlyHost p _ _ _)
  | segmentErase a =>
    refine hload.trans ?_
    show OnlyHost p _ (ownerSegmentErase p a (loadTimer s))
    unfold ownerSegmentErase
    dsimp only
    split
    · exact beginOpening_onlyHost p _ _
    · exact place_onlyHost p _ _
  | program a data => exact .refl p s

theorem sessionErase_onlyHost (p : Port) (f : InFlight) (s : State) : OnlyHost p s (sessionErase p f s) := by
  unfold sessionErase
  split
  · exact ownerErase_onlyHost p f s
  · cases s.session.lock with
    | free =>
      dsimp only
      split
      · exact OnlyHost.trans (.of_flash_eq (by simp [startSession]) (by simp)) (ownerErase_onlyHost p f _)
      · exact giveResult_onlyHost p _ _ s
    | session => exact giveResult_onlyHost p _ _ s
    | rollback => exact giveResult_onlyHost p _ _ s

theorem endSession_onlyHost (p : Port) (s : State) : OnlyHost p s (endSession s) := by
  unfold endSession
  split <;> exact .of_flash_eq (by simp) (by simp)

/-- R37: the end of a session reaches the port of its owner alone. -/
theorem abandonSession_onlyHost (r : EndReason) (ho : s.session.owner = some p) : OnlyHost p s (abandonSession r s) := by
  unfold abandonSession
  rw [ho]
  cases r with
  | idle => exact (endSession_onlyHost p s).trans (updatePort_onlyHost p _ _)
  | owner => exact (endSession_onlyHost p s).trans (updatePort_onlyHost p _ _)
  | verdict =>
    dsimp only
    split
    · exact (endSession_onlyHost p s).trans (updatePort_onlyHost p _ _)
    · exact endSession_onlyHost p s

theorem sessionSoftReset_onlyHost (ho : s.session.owner = some p) : OnlyHost p s (sessionSoftReset p s) := by
  unfold sessionSoftReset
  split
  · split
    · exact abandonSession_onlyHost _ ho
    · exact .of_flash_eq (by simp) (by simp)
  · exact .refl p s
  · exact .refl p s
  · exact .refl p s

theorem otherProgram_onlyHost (p : Port) (a : LogicalAddr) (data : List Byte) (s : State) :
    OnlyHost p s (otherProgram p a data s) := by
  have hask : ∀ u : State, ∀ b, (∀ r, u.port r = s.port r) → u.flash = s.flash → OnlyHost p s (askAppend b u) :=
    fun u b hp hf => .of_flash_eq (by simp [askAppend, hp]) (by simp [hf])
  unfold otherProgram
  split
  · unfold decideAccept
    (repeat' split) <;> first | exact giveResult_onlyHost p _ _ s | exact hask _ _ (by simp) (by simp)
  · split
    · unfold decideRevert
      (repeat' split) <;> first | exact giveResult_onlyHost p _ _ s | exact hask _ _ (by simp) (by simp)
    · split <;> exact giveResult_onlyHost p _ _ s

theorem sessionProgram_onlyHost (p : Port) (a : LogicalAddr) (data : List Byte) (s : State) :
    OnlyHost p s (sessionProgram p a data s) := by
  unfold sessionProgram
  split
  · next ho =>
    have howner : s.session.owner = some p := (of_decide_eq_true ho).2
    unfold ownerProgramRequest
    split
    · exact abandonSession_onlyHost _ howner
    · refine OnlyHost.trans (.of_flash_eq (by simp [loadTimer]) (by simp) : OnlyHost p s (loadTimer s)) ?_
      unfold ownerProgram
      split
      · exact place_onlyHost p _ _
      · exact giveResult_onlyHost p _ _ _
  · exact otherProgram_onlyHost p a data s

theorem takeWrite_onlyHost {decideIt : State → State} (p : Port) (a : LogicalAddr) (n : Nat) (f : InFlight) (s : State)
    (hd : ∀ x, OnlyHost p x (decideIt x)) : OnlyHost p s (takeWrite p a n f decideIt s) := by
  have hwel := updatePort_onlyHost p (fun q => { q with wel := false }) s
  unfold takeWrite
  dsimp only
  split
  · exact hwel
  · split
    · exact hwel.trans (updatePort_onlyHost p _ _)
    · exact (hwel.trans (updatePort_onlyHost p _ _)).trans (hd _)

theorem takeSoftReset_onlyHost (p : Port) (s : State) : OnlyHost p s (takeSoftReset p s) := by
  unfold takeSoftReset
  dsimp only
  split
  · next ho => exact (updatePort_onlyHost p _ s).trans (sessionSoftReset_onlyHost ho)
  · exact updatePort_onlyHost p _ s

theorem takeReady_onlyHost (p : Port) (r : HostRequest) (s : State) : OnlyHost p s (takeReady p r s) := by
  cases r with
  | arrayRead a n =>
    exact ((updatePort_onlyHost p _ s).trans (firstChunk_onlyHost p _)).trans (deliver_onlyHost p _ _)
  | pageProgram a data =>
    show OnlyHost p s (takeProgram p a data s)
    unfold takeProgram
    split
    · exact updatePort_onlyHost p _ s
    · exact takeWrite_onlyHost p _ _ _ s (sessionProgram_onlyHost p a data)
  | sectorErase a => exact takeWrite_onlyHost p _ _ _ s (sessionErase_onlyHost p _)
  | segmentErase a => exact takeWrite_onlyHost p _ _ _ s (sessionErase_onlyHost p _)
  | softReset => exact takeSoftReset_onlyHost p s
  | writeEnable =>
    exact updatePort_onlyHost p (fun q => { q with wel := true, refused := false, progFail := false, eraseFail := false }) s
  | writeDisable => exact updatePort_onlyHost p (fun q => { q with wel := false }) s
  | statusRead n => exact putOut_onlyHost p _ s
  | extendedStatusRead n => exact putOut_onlyHost p _ s
  | identRead n => exact putOut_onlyHost p _ s
  | unknownCode code n => exact putOut_onlyHost p _ s

theorem takeBusy_onlyHost (p : Port) (r : HostRequest) (s : State) : OnlyHost p s (takeBusy p r s) := by
  cases r with
  | arrayRead a n => exact (refuseBusy_onlyHost p _ s).trans (putOut_onlyHost p _ _)
  | identRead n => exact (refuseBusy_onlyHost p _ s).trans (putOut_onlyHost p _ _)
  | softReset => exact takeSoftReset_onlyHost p s
  | statusRead n => exact putOut_onlyHost p _ s
  | extendedStatusRead n => exact putOut_onlyHost p _ s
  | unknownCode code n => exact putOut_onlyHost p _ s
  | _ => exact refuseBusy_onlyHost p _ s

theorem takeRequest_onlyHost (p : Port) (r : HostRequest) (s : State) : OnlyHost p s (takeRequest p r s) := by
  unfold takeRequest
  split
  · exact takeReady_onlyHost p r s
  · exact takeBusy_onlyHost p r s
  · exact takeBusy_onlyHost p r s
  · exact .refl p s
  · exact .refl p s

theorem arrive_onlyHost (p : Port) (r : HostRequest) (s : State) : OnlyHost p s (arrive p r s) := by
  unfold arrive
  split
  · exact updatePort_onlyHost p _ s
  · split
    · split
      · exact updatePort_onlyHost p _ s
      · exact .refl p s
    · exact .refl p s
  · exact takeRequest_onlyHost p r s
  · exact takeRequest_onlyHost p r s
  · exact takeRequest_onlyHost p r s

theorem forgetHeld_onlyHost (p : Port) (s : State) : OnlyHost p s (forgetHeld p s) := by
  unfold forgetHeld
  split
  · exact updatePort_onlyHost p _ s
  · exact updatePort_onlyHost p _ s
  all_goals exact .refl p s

/-- What a request of a host keeps beside the other port: the flash contents and all that a switch, a start-up, a check or a
commit changes. -/
structure RequestKeeps (s t : State) : Prop where
  mem : t.mem = s.mem
  faults : t.faults = s.faults
  epoch : t.map.epoch = s.map.epoch
  switch : t.map.switch = s.map.switch
  serial : t.image.serial = s.image.serial
  imageOk : t.image.imageOk = s.image.imageOk
  seq : t.seq = s.seq
  check : t.check = s.check
  reader : t.reader = s.reader
  commit : t.commit = s.commit

/-- A command of a host is a request that arrives, the clocking of a transfer or its end, a request that is forgotten, or
nothing. -/
theorem exec_request (hp : requestPort c = some p) (h : exec c s = .next t) :
    Quiet True s t ∧ OnlyHost p s t ∧ RequestKeeps s t := by
  have harrive (r : HostRequest) (heq : Host.Outcome.next (arrive p r s) = exec c s) :
      Quiet True s t ∧ OnlyHost p s t ∧ RequestKeeps s t := by
    rw [h] at heq
    cases heq
    exact ⟨arrive_quiet p r s, arrive_onlyHost p r s, by constructor <;> simp⟩
  cases c <;> cases hp
  case arrayRead addr clocks => exact harrive (.arrayRead addr clocks) rfl
  case nextChunk clocks =>
    replace h : execNextChunk p clocks s = .next t := h
    have hclock := clockBytes_quiet (short := True) p clocks s
    unfold execNextChunk at h
    dsimp only at h
    split at h <;> cases h
    · exact ⟨hclock.trans (formChunk_quiet p _), (clockBytes_onlyHost p _ s).trans (formChunk_onlyHost p _),
        by constructor <;> simp⟩
    · exact ⟨hclock, clockBytes_onlyHost p _ s, by constructor <;> simp⟩
  case transferEnd clocks =>
    cases h
    exact ⟨(clockBytes_quiet p clocks s).trans (endTransfer_quiet p _),
      (clockBytes_onlyHost p _ s).trans (endTransfer_onlyHost p _), by constructor <;> simp⟩
  case pageProgram addr data => exact harrive (.pageProgram addr data) rfl
  case sectorErase addr => exact harrive (.sectorErase addr) rfl
  case segmentErase addr => exact harrive (.segmentErase addr) rfl
  case startCommit => exact harrive (controlProgram .startCommit) rfl
  case abandon => exact harrive (controlProgram .abandon) rfl
  case accept => exact harrive (controlProgram .accept) rfl
  case revert => exact harrive (controlProgram .revert) rfl
  case writeEnable => exact harrive .writeEnable rfl
  case writeDisable => exact harrive .writeDisable rfl
  case statusRead clocks => exact harrive (.statusRead clocks) rfl
  case extendedStatusRead clocks => exact harrive (.extendedStatusRead clocks) rfl
  case identRead clocks => exact harrive (.identRead clocks) rfl
  case softReset => exact harrive .softReset rfl
  case unknownCode code clocks => exact harrive (.unknownCode code clocks) rfl
  case incompleteRequest sent =>
    cases h
    exact ⟨.refl, .refl p s, by constructor <;> rfl⟩
  case heldRequestForgotten =>
    cases h
    exact ⟨forgetHeld_quiet p s, forgetHeld_onlyHost p s, by constructor <;> simp⟩

/-- Settles O26: the banks stay over atomic updates, the other port over `OnlyHost`, the rest over every request. -/
theorem hostRequestsLeaveTheOtherPortAlone : Obligations.HostRequestsLeaveTheOtherPortAlone := by
  unfold Obligations.HostRequestsLeaveTheOtherPortAlone
  intro c p s t hp h
  obtain ⟨hq, ho, hk⟩ := exec_request hp h
  exact ⟨ho.other, hk.mem, hk.faults, hk.epoch, hk.switch, hq.imageKept.banks, hk.serial, hk.imageOk, hk.seq, hk.check,
    hk.reader, hk.commit, ho.transfer, ho.pointer, ho.slotLog, ho.slotWork⟩

end

end Sys2Proof.Machine
end

section
/-!
PROOF of O1, O2, O9, O11, O15: a step, the reset state, and what the part reports.
-/

namespace Sys2Proof.Machine

/-! ### Steps -/

/-- Settles O1. -/
theorem stepTakesTheFrontCommand : Obligations.StepTakesTheFrontCommand := by
  unfold Obligations.StepTakesTheFrontCommand
  intro c rest s h
  rw [step, h]

/-- One ms of an erase in progress, as R135 has it. -/
theorem FlashErase.tick_eq (e : FlashErase) :
    e.tick = if e.condition = .suspended then e else { e with runTime := min e.kind.limit (e.runTime + 1) } := by
  unfold FlashErase.tick
  cases e.condition <;> rfl

theorem IdleTimer.tick_of_not_running {x : IdleTimer} (h : ∀ ms, x ≠ .running ms) : x.tick = x := by
  cases x with
  | running ms => exact absurd rfl (h ms)
  | _ => rfl

theorem FlashWait.tick_of_not_polling {x : FlashWait} (h : ∀ ms, x ≠ .polling ms) : x.tick = x := by
  cases x with
  | polling ms => exact absurd rfl (h ms)
  | _ => rfl

/-- Settles O2: the step is `passTime`, which ticks the four counters of the part and leaves all else. -/
theorem idleStepPassesOneMs : Obligations.IdleStepPassesOneMs := by
  unfold Obligations.IdleStepPassesOneMs
  intro s hs
  refine ⟨passTime s, by rw [step, hs], ?_, ?_, ?_, ?_, ?_, ?_, ?_, ?_, ?_, rfl⟩
  · intro ms h
    simp [passTime, h, IdleTimer.tick]
  · intro h
    simp [passTime, IdleTimer.tick_of_not_running h]
  · intro e h
    simp [passTime, h, FlashErase.tick_eq]
  · intro h
    simp [passTime, h]
  · intro x h hx
    cases ha : x.access with
    | program a data => exact absurd ha (hx a data)
    | _ => simp [passTime, h, FlashTransfer.tick, ha]
  · intro x a data h ha
    simp only [passTime, h, Option.map_some, FlashTransfer.tick, ha]
    rfl
  · intro h
    simp [passTime, h]
  · intro ms h
    simp only [passTime, h, FlashWait.tick]
    rfl
  · intro h
    simp [passTime, FlashWait.tick_of_not_polling h]

/-- Settles O15. -/
theorem resetStateIsSound : Obligations.ResetStateIsSound := by
  unfold Obligations.ResetStateIsSound
  refine ⟨rfl, reset_map_sound, rfl, rfl, ⟨?_, ?_, ?_⟩, rfl, rfl, rfl⟩
  · simp [State.waitSound, State.reset, Sequencer.reset]
  · simp [State.phaseWorkSound, State.reset, Sequencer.reset, LogUnit.reset, ImageUnit.reset, State.trialsAsked,
      State.startReader, State.startRollback]
  · refine ⟨fun _ => rfl, fun p => ?_⟩
    cases p <;> exact ⟨fun _ => ⟨rfl, rfl⟩, fun h => by cases h⟩

/-! ### Status bytes and codes (O9) -/

theorem busy_iff (q : HostPort) : q.busy = true ↔ q.state = .opBusy ∨ q.state = .commitBusy := by
  unfold HostPort.busy
  cases q.state <;> simp

/-- Five bits put side by side are the sum of their weights. -/
theorem five_bits_toNat (a b c d e : Bool) :
    (bitOf a 0 ||| bitOf b 1 ||| bitOf c 2 ||| bitOf d 3 ||| bitOf e 4).toNat =
      a.toNat + 2 * b.toNat + 4 * c.toNat + 8 * d.toNat + 16 * e.toNat := by
  cases a <;> cases b <;> cases c <;> cases d <;> cases e <;> rfl

/-- The fields of SR2 put side by side are the sum of their weights. -/
theorem sr2_fields_toNat (f : SessionField) (i : ImageState) (a b : Bool) :
    (f.code ||| (i.code <<< 2) ||| bitOf a 4 ||| bitOf b 5).toNat =
      f.code.toNat + 4 * i.code.toNat + 16 * a.toNat + 32 * b.toNat := by
  cases f <;> cases i <;> cases a <;> cases b <;> rfl

theorem le32Bytes_eq (w : Word32) :
    le32Bytes w = [w.extractLsb' 0 8, w.extractLsb' 8 8, w.extractLsb' 16 8, w.extractLsb' 24 8] := rfl

/-- Settles O9. -/
theorem statusBytesFollowTheTables : Obligations.StatusBytesFollowTheTables := by
  unfold Obligations.StatusBytesFollowTheTables
  refine ⟨busy_iff, fun q => five_bits_toNat _ _ _ _ _, fun s p => sr2_fields_toNat _ _ _ _,
    fun f => five_bits_toNat _ _ _ _ _, fun s p => ?_, rfl, rfl, rfl, rfl⟩
  rw [State.extendedStatus, le32Bytes_eq]
  rfl

/-! ### The lines (O11) -/

theorem wait_iff (q : HostPort) :
    q.wait = true ↔ q.state = .held ∨ (q.state = .transfer ∧ ∃ t, q.transfer = some t ∧ (t.buffer = [] ∨ t.ended = true)) := by
  unfold HostPort.wait
  cases q.state with
  | transfer => cases q.transfer <;> simp [or_comm]
  | _ => simp

theorem faults_nonempty_iff (f : FaultSet) : f.nonempty = true ↔ f ≠ FaultSet.empty := by
  obtain ⟨a, b, c, d, e⟩ := f
  cases a <;> cases b <;> cases c <;> cases d <;> cases e <;> simp [FaultSet.nonempty, FaultSet.empty]

theorem faults_add_nonempty (f : FaultSet) (m : FaultMember) : (f.add m).nonempty = true := by
  cases m <;> simp [FaultSet.add, FaultSet.nonempty]

/-- Settles O11. -/
theorem linesFollowTheState : Obligations.LinesFollowTheState := by
  unfold Obligations.LinesFollowTheState
  refine ⟨wait_iff, fun s => ⟨fun h => ?_, fun h => ⟨?_, ?_, ?_, fun m => ?_, ?_⟩⟩⟩
  · simp [State.lineFault, State.lineUpdating, State.lineImageOk, State.serving, h]
  · simpa [State.lineFault, State.serving, h] using faults_nonempty_iff s.faults
  · cases hl : s.session.lock <;> simp [State.lineUpdating, State.serving, h, hl]
  · simp [State.lineImageOk, State.serving, h]
  · simpa [State.lineFault, State.serving, h, raiseFault] using faults_add_nonempty s.faults m
  · simp [State.lineFault, State.serving, h, FaultSet.afterSwitch, FaultSet.nonempty, and_assoc]

end Sys2Proof.Machine
end

section
/-!
PROOF of O3, O12, O13, O14: the requests on the wires, the views of the map, the bitmaps of a map, and the flash contents.
-/

namespace Sys2Proof.Machine

/-! ### Requests on the wires (O3) -/

theorem addrOfBytes_bytesOfAddr (a : LogicalAddr) :
    addrOfBytes (a.extractLsb' 16 8) (a.extractLsb' 8 8) (a.extractLsb' 0 8) = a := by
  refine BitVec.eq_of_getLsbD_eq fun i hi => ?_
  simp only [addrOfBytes, BitVec.getLsbD_append, BitVec.getLsbD_extractLsb']
  by_cases h8 : i < 8
  · simp [h8]
  · by_cases h16 : i - 8 < 8
    · simp [h8, h16, (by omega : 8 + (i - 8) = i)]
    · simp [h8, h16, (by omega : i - 8 - 8 < 8), (by omega : 16 + (i - 8 - 8) = i)]

theorem decodeRequest_unknown {p : Port} {code : Byte} {rest : List Byte} {clocks : Nat} (h : code ∉ commandCodes) :
    decodeRequest p (code :: rest) clocks = .unknownCode p code clocks := by
  simp only [commandCodes, List.mem_cons, List.not_mem_nil, or_false, not_or] at h
  obtain ⟨h0, h1, h2, h3, h4, h5, h6, h7, h8, h9⟩ := h
  simp only [decodeRequest, h0, h1, h2, h3, h4, h5, h6, h7, h8, h9, if_false]

theorem decodeRequest_requestBytes (p : Port) (r : HostRequest)
    (h : ∀ code n, r = .unknownCode code n → code ∉ commandCodes) :
    decodeRequest p (requestBytes r) (requestClocks r) = requestCommand p r := by
  cases r with
  | unknownCode code n => exact decodeRequest_unknown (h code n rfl)
  | arrayRead a n => exact congrArg (Instr.arrayRead p · n) (addrOfBytes_bytesOfAddr a)
  | pageProgram a data => exact congrArg (Instr.pageProgram p · data) (addrOfBytes_bytesOfAddr a)
  | sectorErase a => exact congrArg (Instr.sectorErase p) (addrOfBytes_bytesOfAddr a)
  | segmentErase a => exact congrArg (Instr.segmentErase p) (addrOfBytes_bytesOfAddr a)
  | _ => rfl

/-- R144: a code that an address follows, without the whole of it, is incomplete. -/
theorem incompleteBytes_of_short {code : Byte} {rest : List Byte} (hc : code ∈ addressedCodes)
    (h : ∀ a b c t, rest ≠ a :: b :: c :: t) : incompleteBytes (code :: rest) = true := by
  have hlen : rest.length < 3 := by
    match rest, h with
    | [], _ => simp
    | [_], _ => simp
    | [_, _], _ => simp
    | a :: b :: c :: t, h => exact absurd rfl (h a b c t)
  simp [incompleteBytes, hc, hlen]

/-- R144: a request with an address is whole, or it is incomplete. -/
theorem addressed_wellFormed {p : Port} {code : Byte} {rest : List Byte} {i : LogicalAddr → List Byte → Instr}
    (hc : code ∈ addressedCodes) (hi : ∀ a data, (i a data).wellFormed = true) :
    Instr.wellFormed
      (match rest with
        | a :: b :: c :: data => i (addrOfBytes a b c) data
        | _ => .incompleteRequest p (code :: rest)) = true := by
  split
  · exact hi _ _
  · next hne => exact incompleteBytes_of_short hc hne

theorem decodeRequest_wellFormed (p : Port) (sent : List Byte) (clocks : Nat) :
    (decodeRequest p sent clocks).wellFormed = true := by
  cases sent with
  | nil => rfl
  | cons code rest =>
    by_cases hc : code ∈ commandCodes
    · simp only [commandCodes, List.mem_cons, List.not_mem_nil, or_false] at hc
      rcases hc with rfl | rfl | rfl | rfl | rfl | rfl | rfl | rfl | rfl | rfl
      case inl =>
        exact addressed_wellFormed (i := fun a _ => .arrayRead p a clocks) (by decide) fun _ _ => rfl
      case inr.inl => exact addressed_wellFormed (i := .pageProgram p) (by decide) fun _ _ => rfl
      case inr.inr.inl => exact addressed_wellFormed (i := fun a _ => .sectorErase p a) (by decide) fun _ _ => rfl
      case inr.inr.inr.inl => exact addressed_wellFormed (i := fun a _ => .segmentErase p a) (by decide) fun _ _ => rfl
      all_goals rfl
    · rw [decodeRequest_unknown hc]
      simpa [Instr.wellFormed] using hc

/-- Settles O3. -/
theorem requestBytesDecodeBack : Obligations.RequestBytesDecodeBack := by
  unfold Obligations.RequestBytesDecodeBack
  exact ⟨decodeRequest_requestBytes, decodeRequest_wellFormed⟩

/-! ### Views (O12) -/

theorem viewBank_stable (e : MapEntry) (sector : Nat) : viewBank .stable e sector = e.bank := by
  unfold viewBank
  cases e.phase <;> rfl

theorem viewBank_update (e : MapEntry) (sector : Nat) :
    viewBank .update e sector = if e.phase = .opened ∧ e.fresh.getLsbD sector = true then e.bank.other else e.bank := by
  unfold viewBank
  cases e.phase <;> simp

theorem viewBank_candidate (e : MapEntry) (sector : Nat) :
    viewBank .candidate e sector =
      if e.phase = .ready ∨ ((e.phase = .opened ∨ e.phase = .filling) ∧ e.fresh.getLsbD sector = true) then e.bank.other
      else e.bank := by
  unfold viewBank
  cases e.phase <;> simp

/-- R8: the translation of a logical address is that address, in the half of the flash that holds its copy. -/
theorem translate_eq (v : View) (es : List MapEntry) (a : LogicalAddr) :
    translate v es (segOf a) (offsetOf a) =
      a.toNat + (if viewBank v (entryOf es (segOf a)) (sectorOf a) = .b then 0x1000000 else 0) := by
  unfold translate physAddr sectorOf
  have hsum : segOf a * Config.segmentSize + offsetOf a = a.toNat := by
    simp only [segOf, offsetOf, Config.segmentSize]
    omega
  cases viewBank v (entryOf es (segOf a)) (sectorOfOffset (offsetOf a)) <;>
    simp only [Config.bankSize, reduceCtorEq, if_true, if_false] <;> omega

/-- Settles O12. -/
theorem viewsTranslateIntoTheCopies : Obligations.ViewsTranslateIntoTheCopies := by
  unfold Obligations.ViewsTranslateIntoTheCopies
  refine ⟨fun e sector => ⟨viewBank_stable e sector, viewBank_update e sector, viewBank_candidate e sector⟩,
    fun v es a => ⟨rfl, ?_, ?_, ?_, ?_, fun hs => ⟨translate_eq v es a, ?_, fun area => ?_⟩⟩⟩
  iterate 4
    simp only [segOf, offsetOf, sectorOf, sectorOfOffset, Config.segmentSize, Config.sectorSize]
    omega
  all_goals
    rw [translate_eq]
    simp only [segOf, Config.segmentSize] at hs
    have hlt := a.isLt
  · split <;> omega
  · cases area <;> simp only [areaBase, Config.mapArea0, Config.bankSize] <;> split <;> omega

/-! ### Bitmaps (O13) -/

theorem testBit_bitsOf (f : MapEntry → Bool) : ∀ (es : List MapEntry) (seg : Nat),
    (bitsOf f es).testBit seg = (decide (seg < es.length) && f (entryOf es seg))
  | [], seg => by simp [bitsOf]
  | e :: t, 0 => by cases h : f e <;> simp [bitsOf, entryOf, h]
  | e :: t, seg + 1 => by
    have ih := testBit_bitsOf f t seg
    have hdiv : ((f e).toNat + 2 * bitsOf f t) / 2 = bitsOf f t := by
      cases f e <;> simp only [Bool.toNat_false, Bool.toNat_true] <;> omega
    rw [bitsOf, Nat.testBit_succ, hdiv, ih]
    simp [entryOf]

theorem getLsbD_ofNat_bitsOf {f : MapEntry → Bool} {es : List MapEntry} (h : es.length = 255) (seg : Nat) :
    (BitVec.ofNat 256 (bitsOf f es)).getLsbD seg = (decide (seg < 255) && f (entryOf es seg)) := by
  rw [BitVec.getLsbD_ofNat, testBit_bitsOf, h]
  by_cases hs : seg < 255
  · simp [hs, (by omega : seg < 256)]
  · simp [hs]

theorem getLsbD_mapBitmap {es : List MapEntry} (h : es.length = 255) (seg : Nat) :
    (mapBitmap es).getLsbD seg = (decide (seg < 255) && decide ((entryOf es seg).bank = .b)) :=
  getLsbD_ofNat_bitsOf h seg

theorem getLsbD_readySet {es : List MapEntry} (h : es.length = 255) (seg : Nat) :
    (readySet es).getLsbD seg = (decide (seg < 255) && decide ((entryOf es seg).phase = .ready)) :=
  getLsbD_ofNat_bitsOf h seg

theorem getLsbD_mappedBits (m : Bitmap) (seg : Nat) :
    (mappedBits m).getLsbD seg = (decide (seg < 255) && m.getLsbD seg) := by
  rw [mappedBits, BitVec.getLsbD_and, BitVec.getLsbD_setWidth, BitVec.getLsbD_allOnes]
  by_cases hs : seg < 255
  · simp [hs, Config.mappedSegments, (by omega : seg < 256)]
  · simp [hs, Config.mappedSegments]

theorem entryOf_banksFrom {es : List MapEntry} (bm : Bitmap) {seg : Nat} (h : seg < es.length) :
    entryOf (banksFrom bm es) seg = { entryOf es seg with bank := if bm.getLsbD seg then .b else .a } := by
  rw [banksFrom, entryOf_mapEntriesFrom _ _ _ _ h, Nat.zero_add]

theorem entryOf_flipEntries {es : List MapEntry} (sw : PendingSwitch) {seg : Nat} (h : seg < es.length) :
    entryOf (flipEntries sw es) seg =
      if sw.flip.getLsbD seg then (entryOf es seg).flip sw.requester else entryOf es seg := by
  rw [flipEntries, entryOf_mapEntriesFrom _ _ _ _ h, Nat.zero_add]

/-- Two maps of one length with the same entries are equal. -/
theorem entries_ext {es es' : List MapEntry} (hl : es.length = es'.length)
    (h : ∀ seg < es.length, entryOf es seg = entryOf es' seg) : es = es' := by
  refine List.ext_getElem hl fun seg h1 h2 => ?_
  simpa [entryOf, h1, h2] using h seg h1

theorem banksFrom_mapBitmap {es : List MapEntry} (h : es.length = 255) : banksFrom (mapBitmap es) es = es := by
  refine entries_ext (mapEntriesFrom_length _ es 0) fun seg hs => ?_
  rw [banksFrom, mapEntriesFrom_length] at hs
  rw [entryOf_banksFrom _ hs, getLsbD_mapBitmap h]
  rw [h] at hs
  obtain ⟨bank, phase, fresh, damaged, toOpen⟩ := entryOf es seg
  cases bank <;> simp [hs]

theorem flipEntries_length (sw : PendingSwitch) (es : List MapEntry) : (flipEntries sw es).length = es.length :=
  mapEntriesFrom_length _ es 0

/-- R17: the bank of an entry after a switch. -/
theorem bank_flipEntries {es : List MapEntry} (sw : PendingSwitch) {seg : Nat} (h : seg < es.length) :
    (entryOf (flipEntries sw es) seg).bank =
      if sw.flip.getLsbD seg then (entryOf es seg).bank.other else (entryOf es seg).bank := by
  rw [entryOf_flipEntries sw h]
  split
  · cases sw.requester <;> rfl
  · rfl

/-- R17: a switch inverts the bits of its flip set. -/
theorem getLsbD_mapBitmap_flipEntries {es : List MapEntry} (sw : PendingSwitch) (h : es.length = 255) (seg : Nat) :
    (mapBitmap (flipEntries sw es)).getLsbD seg =
      (decide (seg < 255) && ((mapBitmap es).getLsbD seg ^^ sw.flip.getLsbD seg)) := by
  rw [getLsbD_mapBitmap ((flipEntries_length sw es).trans h), getLsbD_mapBitmap h]
  by_cases hs : seg < 255
  · rw [bank_flipEntries sw (h ▸ hs)]
    cases hb : (entryOf es seg).bank <;> cases hf : sw.flip.getLsbD seg <;> simp [hs, Bank.other]
  · simp [hs]

/-- Settles O13. -/
theorem switchesGiveTheRecordedMaps : Obligations.SwitchesGiveTheRecordedMaps := by
  unfold Obligations.SwitchesGiveTheRecordedMaps
  intro es h
  refine ⟨fun seg => by simp [getLsbD_mapBitmap h], fun bm seg hs => entryOf_banksFrom bm (h ▸ hs), banksFrom_mapBitmap h,
    fun epoch => BitVec.eq_of_getLsbD_eq fun seg _ => ?_, fun epoch target seg hs => ?_⟩
  · rw [getLsbD_mapBitmap_flipEntries _ h, BitVec.getLsbD_xor, getLsbD_mapBitmap h, getLsbD_readySet h]
    by_cases hs : seg < 255 <;> simp [hs]
  · rw [getLsbD_mapBitmap_flipEntries _ h]
    simp [rollbackFlip, getLsbD_mappedBits, hs]

/-! ### The flash contents (O14) -/

/-- What a program of `data` leaves: the AND of the old byte and what the flash took of the data byte. -/
theorem memRead_memProgramFrom (left : Remains) (x : Nat) : ∀ (data : List Byte) (i : Nat) {m : List Host.Cell} (a : Nat),
    Memory.wf m = true →
      memRead (memProgramFrom left i data m a) x =
        if a + i ≤ x ∧ x < a + i + data.length then
          memRead m x &&& (leftAt left (x - a)).getD (data.getD (x - (a + i)) 0xFF)
        else memRead m x
  | [], i, m, a, _ => by
    rw [memProgramFrom, if_neg (by simp)]
  | d :: ds, i, m, a, hm => by
    rw [memProgramFrom, memRead_memProgramFrom left x ds (i + 1) a (memWrite_wf _ _ hm), memRead_memWrite hm]
    by_cases hx : x = a + i
    · subst hx
      rw [if_neg (by omega), if_pos rfl, if_pos ⟨Nat.le_refl _, by simp only [List.length_cons]; omega⟩, Nat.sub_self,
        Nat.add_sub_cancel_left, List.getD_cons_zero]
    · by_cases hin : a + i ≤ x ∧ x < a + i + (d :: ds).length
      · have hrest : a + (i + 1) ≤ x ∧ x < a + (i + 1) + ds.length := by
          simp only [List.length_cons] at hin
          omega
        have hidx : x - (a + i) = x - (a + (i + 1)) + 1 := by omega
        simp only [hx, hin, hrest, hidx, if_false, if_true, and_self, List.getD_cons_succ]
      · have hrest : ¬(a + (i + 1) ≤ x ∧ x < a + (i + 1) + ds.length) := by
          simp only [List.length_cons] at hin
          omega
        simp only [hx, hin, hrest, if_false]

theorem memRead_memProgram {m : List Host.Cell} (a : Nat) (data : List Byte) (left : Remains) (x : Nat)
    (hm : Memory.wf m = true) :
    memRead (memProgram m a data left) x =
      if a ≤ x ∧ x < a + data.length then memRead m x &&& (leftAt left (x - a)).getD (data.getD (x - a) 0xFF)
      else memRead m x :=
  memRead_memProgramFrom left x data 0 a hm

theorem memRead_memPutLeft_outside (a n x : Nat) (hx : ¬(a ≤ x ∧ x < a + n)) : ∀ (left : Remains) {m : List Host.Cell},
    Memory.wf m = true → memRead (memPutLeft a n left m) x = memRead m x
  | [], _, _ => rfl
  | c :: t, m, hm => by
    unfold memPutLeft
    split
    · rw [memRead_memPutLeft_outside a n x hx t (memWrite_wf _ _ hm), memRead_memWrite hm, if_neg (by omega)]
    · exact memRead_memPutLeft_outside a n x hx t hm

/-- Settles O14. -/
theorem operationsStayInTheirRange : Obligations.OperationsStayInTheirRange := by
  unfold Obligations.OperationsStayInTheirRange
  intro m a n data left x hm
  refine ⟨memRead_memProgram a data [] x hm, fun h1 h2 => ?_, fun hx => ?_, fun hx => ?_, ?_⟩
  · rw [memErase, memPutLeft, memRead_memClear, if_pos ⟨h1, h2⟩]
    rfl
  · rw [memErase, memRead_memPutLeft_outside a n x hx left (memClear_wf a n hm), memRead_memClear, if_neg hx]
  · rw [memRead_memProgram a data left x hm, if_neg hx]
  · rw [memRead_memProgram a data left x hm]
    split
    · rw [BitVec.and_assoc, BitVec.and_comm _ (memRead m x), ← BitVec.and_assoc, BitVec.and_self]
    · exact BitVec.and_self

end Sys2Proof.Machine
end

section
/-!
PROOF of O4, O5, O6 and O7. What is written as a field is read as that field behind whatever stands before it
(`byteAt_append_skip` and its kin); a record is read back field by field. Replay over written records is an induction on them.
An image header is captured word by word, and its used lengths pair by pair.
-/

namespace Sys2Proof.Machine

/-! ### Fields -/

@[simp] theorem byteAt_append_skip {xs ys : List Byte} {i : Nat} (h : xs.length ≤ i) :
    byteAt (xs ++ ys) i = byteAt ys (i - xs.length) := by
  simp only [byteAt, List.getD_eq_getElem?_getD, List.getElem?_append_right h]

@[simp] theorem byteAt_cons_succ (b : Byte) (bs : List Byte) (i : Nat) : byteAt (b :: bs) (i + 1) = byteAt bs i := rfl

@[simp] theorem byteAt_cons_zero (b : Byte) (bs : List Byte) : byteAt (b :: bs) 0 = b := rfl

theorem byteAt_drop (bs : List Byte) (i j : Nat) : byteAt (bs.drop i) j = byteAt bs (i + j) := by
  simp only [byteAt, List.getD_eq_getElem?_getD, List.getElem?_drop]

theorem le32At_drop (bs : List Byte) (i j : Nat) : le32At (bs.drop i) j = le32At bs (i + j) := by
  simp only [le32At, byteAt_drop, Nat.add_assoc]

@[simp] theorem le32At_append_skip {xs ys : List Byte} {i : Nat} (h : xs.length ≤ i) :
    le32At (xs ++ ys) i = le32At ys (i - xs.length) := by
  have hskip (k : Nat) : byteAt (xs ++ ys) (i + k) = byteAt ys (i - xs.length + k) := by
    rw [byteAt_append_skip (by omega), Nat.sub_add_comm h]
  simp only [le32At, byteAt_append_skip h, hskip]

@[simp] theorem le32At_cons_succ (b : Byte) (bs : List Byte) (i : Nat) : le32At (b :: bs) (i + 1) = le32At bs i := rfl

@[simp] theorem bitmapAt_append_skip {xs ys : List Byte} {i : Nat} (h : xs.length ≤ i) :
    bitmapAt (xs ++ ys) i = bitmapAt ys (i - xs.length) := by
  simp only [bitmapAt, List.drop_append, List.drop_eq_nil_of_le h, List.nil_append]

@[simp] theorem bitmapAt_cons_succ (b : Byte) (bs : List Byte) (i : Nat) : bitmapAt (b :: bs) (i + 1) = bitmapAt bs i := rfl

/-- R47: a 32-bit number is read as it was written. -/
@[simp] theorem le32At_le32Bytes (w : Word32) (rest : List Byte) : le32At (le32Bytes w ++ rest) 0 = w := by
  show w.extractLsb' 24 8 ++ w.extractLsb' 16 8 ++ w.extractLsb' 8 8 ++ w.extractLsb' 0 8 = w
  refine BitVec.eq_of_getLsbD_eq fun i hi => ?_
  simp only [BitVec.getLsbD_append, BitVec.getLsbD_extractLsb']
  by_cases h8 : i < 8
  · simp [h8]
  · by_cases h16 : i - 8 < 8
    · simp [h8, h16, (by omega : 8 + (i - 8) = i)]
    · by_cases h24 : i - 8 - 8 < 8
      · simp [h8, h16, h24, (by omega : 16 + (i - 8 - 8) = i)]
      · simp [h8, h16, h24, (by omega : i - 8 - 8 - 8 < 8), (by omega : 24 + (i - 8 - 8 - 8) = i)]

theorem natOfBytes_append (b : Byte) : ∀ xs : List Byte,
    natOfBytes (xs ++ [b]) = natOfBytes xs + 2 ^ (8 * xs.length) * b.toNat
  | [] => by simp [natOfBytes]
  | x :: t => by
    have hpow : 2 ^ (8 * (t.length + 1)) = 256 * 2 ^ (8 * t.length) := by
      rw [Nat.mul_succ, Nat.pow_add, Nat.mul_comm]
    rw [List.cons_append, natOfBytes, natOfBytes_append b t, natOfBytes, List.length_cons, hpow, Nat.mul_assoc,
      Nat.mul_add, Nat.add_assoc]

theorem natOfBytes_extract {n : Nat} (m : BitVec n) : ∀ k : Nat,
    natOfBytes ((List.range k).map (fun i => m.extractLsb' (8 * i) 8)) = m.toNat % 2 ^ (8 * k)
  | 0 => by simp [natOfBytes, Nat.mod_one]
  | k + 1 => by
    have hpow : 2 ^ (8 * (k + 1)) = 2 ^ (8 * k) * 2 ^ 8 := by rw [← Nat.pow_add]; congr 1
    rw [List.range_succ, List.map_append, List.map_singleton, natOfBytes_append, natOfBytes_extract m k, hpow, Nat.mod_mul]
    simp [BitVec.extractLsb'_toNat, Nat.shiftRight_eq_div_pow]

theorem mappedBits_eq_self {m : Bitmap} (h : m.getLsbD 255 = false) : mappedBits m = m := by
  refine BitVec.eq_of_getLsbD_eq fun seg hs => ?_
  rw [getLsbD_mappedBits]
  by_cases h255 : seg < 255
  · simp [h255]
  · rw [(by omega : seg = 255), h]
    rfl

theorem mappedBits_mappedBits (m : Bitmap) : mappedBits (mappedBits m) = mappedBits m :=
  mappedBits_eq_self (by rw [getLsbD_mappedBits]; rfl)

/-- R18, R170: a bitmap is read as it was written, with bit 255 disregarded. -/
@[simp] theorem bitmapAt_bitmapBytes (m : Bitmap) (rest : List Byte) : bitmapAt (bitmapBytes m ++ rest) 0 = mappedBits m := by
  have hread : ((bitmapBytes m ++ rest).drop 0).take 32 = bitmapBytes m := by
    rw [List.drop_zero, List.take_left' (bitmapBytes_length m)]
  rw [bitmapAt, hread, bitmapBytes, natOfBytes_extract]
  have hlt : (mappedBits m).toNat % 2 ^ (8 * 32) = (mappedBits m).toNat := Nat.mod_eq_of_lt (mappedBits m).isLt
  rw [hlt, BitVec.ofNat_toNat, BitVec.setWidth_eq, mappedBits_mappedBits]

@[simp] theorem trialOf_trialByte (n : Fin 4) : trialOf (trialByte n) = n := by
  match n with
  | 0 => rfl
  | 1 => rfl
  | 2 => rfl
  | 3 => rfl

@[simp] theorem flagOf_flagByte (v : Bool) : flagOf (flagByte v) = v := by cases v <;> rfl

@[simp] theorem loggedStateOf_loggedStateByte (x : LoggedState) : loggedStateOf (loggedStateByte x) = x := by cases x <;> rfl

@[simp] theorem causeOf_causeByte (x : RollbackCause) : causeOf (causeByte x) = x := by cases x <;> rfl

/-! ### Records and area headers (O4) -/

/-- The record as its fields stand one after another. -/
theorem recordBytes_eq (seq : Word32) (body : RecordBody) :
    recordBytes seq body =
      le32Bytes seq ++ kindByte body ::
        (bodyBytes body ++ (List.replicate (119 - (bodyBytes body).length) 0 ++
          le32Bytes (crc32 (recordHead seq body)))) := by
  simp [recordBytes, recordHead, zeroFilled]

theorem byteAt_recordBytes_kind (seq : Word32) (body : RecordBody) : byteAt (recordBytes seq body) 4 = kindByte body := by
  rw [recordBytes_eq]
  rfl

theorem erasedBytes_recordBytes (seq : Word32) (body : RecordBody) : erasedBytes (recordBytes seq body) = false := by
  have hmem : kindByte body ∈ recordBytes seq body := by
    rw [recordBytes_eq]
    simp
  have hne : kindByte body ≠ Config.erasedByte := by cases body <;> simp [kindByte, Config.erasedByte]
  rw [erasedBytes, List.all_eq_false]
  exact ⟨_, hmem, by simpa using hne⟩

/-- R79: behind the kind byte of a record the body is read field by field. -/
theorem recordBody_recordBytes (seq : Word32) (body : RecordBody) (h : ∀ bm ∈ recordBitmaps body, bm.getLsbD 255 = false) :
    recordBody (recordBytes seq body) = some body := by
  have hkind := byteAt_recordBytes_kind seq body
  have hbits (bm : Bitmap) (hbm : bm ∈ recordBitmaps body) : mappedBits bm = bm := mappedBits_eq_self (h bm hbm)
  unfold recordBody
  rw [hkind, recordBytes_eq]
  cases body with
  | base sm =>
    have h0 := hbits sm.bitmap (by simp [recordBitmaps])
    have h1 := hbits sm.targetBitmap (by simp [recordBitmaps])
    simp [kindByte, bodyBytes, baseSummary, h0, h1]
  | opened => rfl
  | commit bm serial crc limit => simp [kindByte, bodyBytes, hbits bm (by simp [recordBitmaps])]
  | trial count => simp [kindByte, bodyBytes]
  | confirm serial => simp [kindByte, bodyBytes]
  | rollback bm serial cause => simp [kindByte, bodyBytes, hbits bm (by simp [recordBitmaps])]

/-- R79: a written record is valid, with its sequence number and its body. -/
theorem validRecord_recordBytes (seq : Word32) (body : RecordBody)
    (h : ∀ bm ∈ recordBitmaps body, bm.getLsbD 255 = false) : validRecord (recordBytes seq body) = some (seq, body) := by
  have hcrc : le32At (recordBytes seq body) 124 = crc32 (recordHead seq body) := by
    rw [recordBytes, le32At_append_skip (Nat.le_of_eq (recordHead_length seq body)), recordHead_length]
    exact le32At_le32Bytes _ []
  have htake : (recordBytes seq body).take 124 = recordHead seq body := List.take_left' (recordHead_length seq body)
  have hseq : le32At (recordBytes seq body) 0 = seq := by
    rw [recordBytes_eq]
    exact le32At_le32Bytes seq _
  rw [validRecord, hcrc, htake, if_pos rfl, recordBody_recordBytes seq body h, hseq]
  rfl

theorem areaHeaderBytes_eq (generation : Word32) :
    areaHeaderBytes generation =
      le32Bytes Config.areaMagic ++ (le32Bytes generation ++
        (le32Bytes (crc32 (areaHead generation)) ++ List.replicate 116 0)) := by
  simp [areaHeaderBytes, zeroFilled, areaHead, Config.positionSize]

/-- R78: a written area header is valid, with its generation. -/
theorem areaGeneration_areaHeaderBytes (generation : Word32) :
    areaGeneration (areaHeaderBytes generation) = some generation := by
  have htake : (areaHeaderBytes generation).take 8 = areaHead generation := by
    rw [areaHeaderBytes_eq, ← List.append_assoc]
    exact List.take_left' rfl
  rw [areaGeneration, htake, areaHeaderBytes_eq]
  simp

/-- R18: the bits of the written bitmap. -/
theorem getLsbD_bitmapBytes (bm : Bitmap) {seg : Nat} (h : seg ≤ 255) :
    ((bitmapBytes bm).getD (seg / 8) 0).getLsbD (seg % 8) = (decide (seg < 255) && bm.getLsbD seg) := by
  have hbyte : (bitmapBytes bm).getD (seg / 8) 0 = (mappedBits bm).extractLsb' (8 * (seg / 8)) 8 := by
    simp [bitmapBytes, (by omega : seg / 8 < 32)]
  rw [hbyte, BitVec.getLsbD_extractLsb', Nat.div_add_mod, getLsbD_mappedBits]
  simp [Nat.mod_lt]

/-- Settles O4. -/
theorem writtenPositionsReadBack : Obligations.WrittenPositionsReadBack := by
  unfold Obligations.WrittenPositionsReadBack
  refine ⟨fun seq body => ⟨recordBytes_length seq body, erasedBytes_recordBytes seq body, validRecord_recordBytes seq body⟩,
    fun generation => ⟨areaHeaderBytes_length generation, areaGeneration_areaHeaderBytes generation, ?_⟩,
    fun bm seg => ⟨bitmapBytes_length bm, getLsbD_bitmapBytes bm⟩⟩
  rw [areaHeaderBytes_eq]
  rfl

/-! ### Replay (O5, O6) -/

/-- R92: the expected record is applied, whatever positions were passed over before it. -/
theorem walkPosition_expected {w : ReplayWalk} {body : RecordBody} (h : ∀ bm ∈ recordBitmaps body, bm.getLsbD 255 = false) :
    walkPosition w (recordBytes (w.last + 1) body) =
      { w with position := w.position + 1, last := w.last + 1, summary := applyRecord w.summary body, miss := none } := by
  rw [walkPosition, validRecord_recordBytes _ _ h]
  exact if_pos rfl

/-- R93: any other position is passed over; the append position is above it, unless it is erased. -/
theorem walkPosition_other {w : ReplayWalk} {bs : List Byte} (h : ∀ b, validRecord bs ≠ some (w.last + 1, b)) :
    walkPosition w bs =
      { w with
        position := w.position + 1
        miss := some (if erasedBytes bs then w.miss.getD w.position else w.position + 1) } := by
  unfold walkPosition
  cases hv : validRecord bs with
  | none => rfl
  | some r =>
    obtain ⟨seq, body⟩ := r
    have hseq : seq ≠ w.last + 1 := fun hs => h body (hs ▸ hv)
    exact if_neg hseq

/-- Settles O5, by induction on the records. -/
theorem replayAppliesWrittenRecords : Obligations.ReplayAppliesWrittenRecords := by
  unfold Obligations.ReplayAppliesWrittenRecords
  intro w bodies
  induction bodies generalizing w with
  | nil =>
    intro _ _
    simp
  | cons body rest ih =>
    intro hmiss hbits
    have hnext (k : Nat) : w.last + 1 + BitVec.ofNat 32 (k + 1) = w.last + 1 + 1 + BitVec.ofNat 32 k := by
      apply BitVec.eq_of_toNat_eq
      simp
      omega
    have hrest := ih (walkPosition w (recordBytes (w.last + 1) body))
      (by rw [walkPosition_expected (hbits body (by simp))]) fun b hb => hbits b (by simp [hb])
    rw [walkPosition_expected (hbits body (by simp))] at hrest
    simp only [List.mapIdx_cons, hnext, List.foldl_cons]
    have hzero : w.last + 1 + BitVec.ofNat 32 0 = w.last + 1 := by simp
    have hlast : w.last + BitVec.ofNat 32 (rest.length + 1) = w.last + 1 + BitVec.ofNat 32 rest.length := by
      apply BitVec.eq_of_toNat_eq
      simp
      omega
    rw [hzero, walkPosition_expected (hbits body (by simp)), hrest, List.length_cons, hlast, hmiss,
      Nat.add_right_comm, Nat.add_assoc]

/-- R92: over positions that do not hold the expected record only the place of replay moves. -/
theorem foldl_walkPosition_other : ∀ (passed : List (List Byte)) (w : ReplayWalk),
    (∀ bs ∈ passed, ∀ b, validRecord bs ≠ some (w.last + 1, b)) →
      ∃ m, passed.foldl walkPosition w = { w with position := w.position + passed.length, miss := m }
  | [], w, _ => ⟨w.miss, rfl⟩
  | bs :: rest, w, h => by
    obtain ⟨m, hm⟩ := foldl_walkPosition_other rest (walkPosition w bs) fun x hx b => by
      rw [walkPosition_other (h bs (by simp))]
      exact h x (by simp [hx]) b
    refine ⟨m, ?_⟩
    rw [List.foldl_cons, hm, walkPosition_other (h bs (by simp)), List.length_cons, Nat.add_right_comm, Nat.add_assoc]

/-- R93: erased positions leave the append position where it was. -/
theorem foldl_walkPosition_erased : ∀ (erased : List (List Byte)) (w : ReplayWalk), erased ≠ [] →
    (∀ bs ∈ erased, ∀ b, validRecord bs ≠ some (w.last + 1, b)) → (∀ bs ∈ erased, erasedBytes bs = true) →
      erased.foldl walkPosition w =
        { w with position := w.position + erased.length, miss := some (w.miss.getD w.position) }
  | [], _, h, _, _ => absurd rfl h
  | bs :: rest, w, _, hother, herased => by
    rw [List.foldl_cons, walkPosition_other (hother bs (by simp)), herased bs (by simp)]
    by_cases hrest : rest = []
    · subst hrest
      rfl
    · rw [foldl_walkPosition_erased rest _ hrest (by exact fun x hx => hother x (by simp [hx]))
        fun x hx => herased x (by simp [hx])]
      simp
      omega

/-- R93: after a position that is not erased the append position is one above it. -/
theorem foldl_walkPosition_written {written : List (List Byte)} {last : List Byte} {w : ReplayWalk}
    (hother : ∀ bs ∈ written ++ [last], ∀ b, validRecord bs ≠ some (w.last + 1, b)) (hlast : erasedBytes last = false) :
    (written ++ [last]).foldl walkPosition w =
      { w with
        position := w.position + (written ++ [last]).length
        miss := some (w.position + (written ++ [last]).length) } := by
  obtain ⟨m, hm⟩ := foldl_walkPosition_other written w fun bs hbs => hother bs (by simp [hbs])
  rw [List.foldl_append, hm]
  simp only [List.foldl_cons, List.foldl_nil]
  rw [walkPosition_other (by exact hother last (by simp)), hlast]
  simp [Nat.add_assoc]

theorem replay_ends {w : ReplayWalk} {written erased : List (List Byte)} (hmiss : w.miss = none) (hne : written ++ erased ≠ [])
    (hother : ∀ bs ∈ written ++ erased, ∀ b, validRecord bs ≠ some (w.last + 1, b))
    (hlast : ∀ bs, written.getLast? = some bs → erasedBytes bs = false) (herased : ∀ bs ∈ erased, erasedBytes bs = true) :
    (written ++ erased).foldl walkPosition w =
      { w with position := w.position + (written ++ erased).length, miss := some (w.position + written.length) } := by
  have hotherErased : ∀ bs ∈ erased, ∀ b, validRecord bs ≠ some (w.last + 1, b) := fun bs hbs => hother bs (by simp [hbs])
  rcases List.eq_nil_or_concat written with rfl | ⟨init, last, rfl⟩
  · rw [List.nil_append, foldl_walkPosition_erased erased w (by simpa using hne) hotherErased herased, hmiss]
    rfl
  · rw [List.concat_eq_append] at hne hother hlast ⊢
    rw [List.foldl_append, foldl_walkPosition_written (fun bs hbs => hother bs (List.mem_append_left _ hbs))
      (hlast last (by simp))]
    by_cases he : erased = []
    · simp [he]
    · rw [foldl_walkPosition_erased erased _ he (by exact hotherErased) herased]
      simp
      omega

/-- Settles O6. -/
theorem replayPassesOverAndEnds : Obligations.ReplayPassesOverAndEnds := by
  unfold Obligations.ReplayPassesOverAndEnds
  refine ⟨fun w passed body hother hbits => ?_, fun w written erased => replay_ends⟩
  obtain ⟨m, hm⟩ := foldl_walkPosition_other passed w hother
  rw [List.foldl_append, hm]
  exact walkPosition_expected (w := { w with position := w.position + passed.length, miss := m }) hbits

/-! ### The image header (O7) -/

theorem le32At_extract_low (bs : List Byte) (i : Nat) : (le32At bs i).extractLsb' 0 16 = le16At bs i := by
  refine BitVec.eq_of_getLsbD_eq fun j hj => ?_
  simp only [le32At, le16At, BitVec.getLsbD_append, BitVec.getLsbD_extractLsb']
  by_cases h8 : j < 8
  · simp [h8, (by omega : j < 16)]
  · simp [h8, hj, (by omega : j - 8 < 8)]

theorem le32At_extract_high (bs : List Byte) (i : Nat) : (le32At bs i).extractLsb' 16 16 = le16At bs (i + 2) := by
  refine BitVec.eq_of_getLsbD_eq fun j hj => ?_
  simp only [le32At, le16At, BitVec.getLsbD_append, BitVec.getLsbD_extractLsb']
  rw [if_neg (by omega), if_neg (by omega), (by omega : 16 + j - 8 - 8 = j)]
  by_cases h8 : j < 8
  · simp [h8, hj]
  · simp [h8, hj, Nat.add_assoc]

/-- R45: the first word of a chunk is captured, then the rest. -/
theorem captureWords_step (c : HeaderCapture) (k : Nat) {bs : List Byte} (h : 4 ≤ bs.length) :
    captureWords c k bs = captureWords (c.word k (le32At bs 0)) (k + 1) (bs.drop 4) := by
  match bs, h with
  | _ :: _ :: _ :: _ :: _, _ => rfl

/-- R45: from the fourth word on the capture takes pairs of a used length and a check value, the pair at word 4 + 2k being
that of segment k. -/
theorem captureWords_pairs : ∀ (n k : Nat) (c : HeaderCapture) (bs : List Byte), bs.length = 8 * n →
    captureWords c (4 + 2 * k) bs =
      { c with
        used := c.used ++ (List.range n).map (fun i => le32At bs (8 * i))
        exceeded := c.exceeded || (List.range n).any (fun i => decide (usedLimitOf (k + i) < (le32At bs (8 * i)).toNat)) }
  | 0, k, c, bs, h => by
    have hnil : bs = [] := List.eq_nil_of_length_eq_zero (by omega)
    simp [hnil, captureWords]
  | n + 1, k, c, bs, h => by
    have heven (x : HeaderCapture) (w : Word32) : x.word (4 + 2 * k) w =
        { x with used := x.used ++ [w], exceeded := x.exceeded || decide (usedLimitOf k < w.toNat) } := by
      rw [HeaderCapture.word, if_neg (by omega), if_neg (by omega), if_neg (by omega), if_neg (by omega),
        if_pos (by omega), (by omega : (4 + 2 * k - 4) / 2 = k)]
    have hodd (x : HeaderCapture) (w : Word32) : x.word (4 + 2 * k + 1) w = x := by
      rw [HeaderCapture.word, if_neg (by omega), if_neg (by omega), if_neg (by omega), if_neg (by omega),
        if_neg (by omega)]
    rw [captureWords_step _ _ (by omega), captureWords_step _ _ (by simp; omega), heven, hodd, List.drop_drop,
      (by omega : 4 + 2 * k + 1 + 1 = 4 + 2 * (k + 1)), captureWords_pairs n (k + 1) _ _ (by simp; omega)]
    have hword (i : Nat) : le32At ((bs.drop 4).drop 4) (8 * i) = le32At bs (8 * (i + 1)) := by
      rw [List.drop_drop, le32At_drop, (by omega : 4 + 4 + 8 * i = 8 * (i + 1))]
    simp only [← List.drop_drop, hword, List.range_succ_eq_map, List.map_cons, List.map_map, List.any_cons, List.any_map,
      List.append_assoc, List.singleton_append, Bool.or_assoc, Nat.mul_zero, Nat.add_zero, Nat.add_assoc, Nat.add_comm 1,
      Function.comp_def, Nat.succ_eq_add_one]

/-- R45, Table 12.1: the capture of a whole header range, field by field. -/
theorem captureWords_header {bs : List Byte} (h : bs.length = 2056) :
    captureWords HeaderCapture.empty 0 bs =
      { magic := le32At bs 0x000, format := le16At bs 0x004, count := le16At bs 0x006, serial := le32At bs 0x008,
        headerCrc := le32At bs 0x00C
        used := (List.range 255).map (fun seg => le32At bs (0x010 + 8 * seg))
        exceeded := (List.range 255).any (fun seg => decide (usedLimitOf seg < (le32At bs (0x010 + 8 * seg)).toNat)) } := by
  rw [captureWords_step _ _ (by omega), captureWords_step _ _ (by simp; omega), captureWords_step _ _ (by simp; omega),
    captureWords_step _ _ (by simp; omega)]
  simp only [List.drop_drop, le32At_drop, Nat.reduceAdd]
  have hpairs := captureWords_pairs 255 0 ((((HeaderCapture.empty.word 0 (le32At bs 0)).word 1 (le32At bs 4)).word 2
    (le32At bs 8)).word 3 (le32At bs 12)) (bs.drop 16) (by simp; omega)
  simp only [le32At_drop] at hpairs
  refine hpairs.trans ?_
  simp [HeaderCapture.word, HeaderCapture.empty, le32At_extract_low, le32At_extract_high]

/-- Settles O7. -/
theorem headerIsJudgedByItsFields : Obligations.HeaderIsJudgedByItsFields := by
  unfold Obligations.HeaderIsJudgedByItsFields
  intro bytes crc h
  have hlimit (seg : Nat) : usedLimitOf seg = if seg = 0 then 61440 else 65536 := rfl
  rw [captureWords_header h]
  refine ⟨?_, rfl, rfl, rfl⟩
  simp only [headerSummary, Bool.and_eq_true, decide_eq_true_eq, Bool.not_eq_true', List.any_eq_false, List.mem_range,
    Nat.not_lt, hlimit, and_assoc]
  rfl

end Sys2Proof.Machine
end

section
/-!
PROOF of O28 to O34: the start-up commands. A client that places into an empty slot, with no erase in progress, fills that
slot alone (`place_of_idle`), and a READ that completes then frees it (`finishRead_of_no_erase`).
-/

namespace Sys2Proof.Machine

section
variable {s : State}

/-! ### Placing and reading with no erase in progress -/

theorem settle_of_no_erase {f : FlashPort} (h : f.erase = none) : f.settle = f := by
  rw [FlashPort.settle, h]

/-- R130: an access that a client places into its empty slot is pending; with no erase in progress nothing else changes. -/
theorem place_of_idle {c : Client} (a : Access) (hs : s.flash.slot c = .empty) (he : s.flash.erase = none) :
    place c a s = s.setFlash (s.flash.setSlot c (.pending a)) := by
  rw [place, FlashPort.place, if_pos hs, settle_of_no_erase ((setSlot_erase _ _ _).trans he)]

theorem underErase_of_no_erase {f : FlashPort} (h : f.erase = none) (a n : Nat) : f.underErase a n = false := by
  rw [FlashPort.underErase, h]

theorem readFlash_of_no_erase (a n : Nat) (h : s.flash.erase = none) : readFlash s a n = memReadBytes s.mem a n := by
  simp [readFlash, underErase_of_no_erase h]

/-- R134: with no erase in progress the completion of a READ frees the slot, and nothing else changes. -/
theorem finishRead_of_no_erase (c : Client) (a n : Nat) (h : s.flash.erase = none) :
    finishRead c a n s = s.setFlash (s.flash.endTransfer c) := by
  have he : (endRead c a n s).flash.erase = none := (setSlot_erase _ _ _).trans h
  rw [finishRead, lookAfterRead, settle_of_no_erase he]
  simp [endRead, underErase_of_no_erase h, State.setFlash]

/-! ### Part reset and the flash-ready wait (O28, O29) -/

/-- Settles O28. -/
theorem partResetGivesThePartResetValues : Obligations.PartResetGivesThePartResetValues := by
  unfold Obligations.PartResetGivesThePartResetValues
  intro s
  refine ⟨afterPartReset s, exec_partReset s, rfl, rfl, rfl, rfl, rfl, rfl, rfl, rfl, rfl, rfl, rfl, rfl, rfl, rfl, rfl, rfl,
    rfl, rfl, rfl, rfl, rfl, rfl, rfl, fun c => ?_, rfl, rfl, rfl, rfl, fun p => ?_, rfl, rfl, rfl, rfl, rfl, rfl⟩
  · cases c <;> rfl
  · cases p <;> exact ⟨rfl, rfl, rfl, rfl, rfl, rfl, rfl, rfl, rfl, rfl⟩

theorem pinBit_eq (l : PinLevel) : pinBit l = decide (l = .high) := by cases l <;> rfl

theorem updEnabled_updSelOf (b1 b0 : Bool) : updEnabled (updSelOf b1 b0) .hp0 = b0 ∧ updEnabled (updSelOf b1 b0) .hp1 = b1 := by
  cases b1 <;> cases b0 <;> exact ⟨rfl, rfl⟩

theorem trialLimOf_val (b1 b0 : Bool) : (trialLimOf b1 b0).val = 2 * b1.toNat + b0.toNat := by
  cases b1 <;> cases b0 <;> rfl

theorem idleLimitMs_idleLimOf (b1 b0 : Bool) :
    idleLimitMs (idleLimOf b1 b0) =
      if b1 = true then (if b0 = true then none else some 300000) else if b0 = true then some 60000 else some 10000 := by
  cases b1 <;> cases b0 <;> rfl

/-- R115, R172, Table 12.10. -/
theorem latchStraps_values (pins : StrapPins) :
    updEnabled (latchStraps pins).updSel .hp0 = decide (pins.updSel0 = .high) ∧
    updEnabled (latchStraps pins).updSel .hp1 = decide (pins.updSel1 = .high) ∧
    (latchStraps pins).chkEn = decide (pins.chkEn = .high) ∧
    (latchStraps pins).trialLim.val =
      2 * (decide (pins.trialLim1 = .high)).toNat + (decide (pins.trialLim0 = .high)).toNat ∧
    idleLimitMs (latchStraps pins).idleLim =
      if pins.idleLim1 = .high then (if pins.idleLim0 = .high then none else some 300000)
      else if pins.idleLim0 = .high then some 60000 else some 10000 := by
  simp only [latchStraps, pinBit_eq, updEnabled_updSelOf, trialLimOf_val, idleLimitMs_idleLimOf, decide_eq_true_eq, and_self]

/-- R117: FLASH_READY and FLASH_WAIT_TIMEOUT at each side of 8 s. -/
theorem exec_flashWait {ms : Nat} (h : s.seq.wait = .polling ms) :
    (exec .flashReady s = if ms < 8000 then .next { s with seq := { s.seq with wait := .resetting } } else .next s) ∧
    (exec .flashWaitTimeout s =
      if 8000 ≤ ms then
        .next { s with seq := { s.seq with wait := .resetting }, faults := { s.faults with flashTimeout := true } }
      else .next s) := by
  refine ⟨?_, ?_⟩
  · show execFlashReady s = _
    rw [execFlashReady, h]
    rfl
  · show execFlashWaitTimeout s = _
    rw [execFlashWaitTimeout, h]
    rfl

/-- Settles O29. -/
theorem flashWaitLatchesTheStrapsAndEndsInScan : Obligations.FlashWaitLatchesTheStrapsAndEndsInScan := by
  unfold Obligations.FlashWaitLatchesTheStrapsAndEndsInScan
  refine ⟨fun pins s h => if_pos h, latchStraps_values, fun s ms h => ?_, fun s left h => ?_⟩
  · obtain ⟨hready, htimeout⟩ := exec_flashWait h
    rw [hready, htimeout]
    exact ⟨fun hms => ⟨if_pos hms, if_neg (by omega)⟩, fun hms => ⟨if_neg (by omega), if_pos hms⟩⟩
  · refine ⟨match s.leftover with
      | some o => memLeftover s.mem o left
      | none => s.mem, ?_, fun ho => by rw [ho], fun a n ho => by rw [ho]; rfl, fun a data ho => by rw [ho]; rfl⟩
    show execStartUpFlashResetComplete left s = _
    rw [execStartUpFlashResetComplete, h]
    rfl

/-! ### SCAN, INIT and replay (O30, O31) -/

theorem atPhase_notBegun {ph : StartPhase} (hp : s.seq.phase = ph) (hw : s.seq.work = .notBegun) : atPhase s ph = true := by
  simp [atPhase, hp, hw]

/-- Settles O30. -/
theorem scanAndInitPlaceTheirFirstAccess : Obligations.ScanAndInitPlaceTheirFirstAccess := by
  unfold Obligations.ScanAndInitPlaceTheirFirstAccess
  refine fun s hw hslot he => ⟨fun hp => ?_, fun hp => ?_⟩
  · show execScan s = _
    rw [execScan, if_pos (atPhase_notBegun hp hw), replayRead, place_of_idle _ (by exact hslot) (by exact he)]
    rfl
  · show execInit s = _
    rw [execInit, if_pos (atPhase_notBegun hp hw)]
    dsimp only
    rw [place_of_idle _ (by exact hslot) (by exact he)]
    rfl

/-- R134: a READ of replay completes and replay takes its bytes. -/
theorem exec_replayReadComplete {r : Replay} {a n : Nat} (hr : s.log.replay = some r)
    (hread : s.flash.readInFlight .log = some (a, n)) (he : s.flash.erase = none) :
    exec .replayReadComplete s = .next (replayTake (memReadBytes s.mem a n) (s.setFlash (s.flash.endTransfer .log))) := by
  show execReplayReadComplete s = _
  rw [execReplayReadComplete, hr, hread]
  dsimp only
  rw [finishRead_of_no_erase .log a n he, readFlash_of_no_erase a n he]

/-- A read of a position that replay places when its slot is free. -/
theorem replayRead_eq (addr : Nat) (r : Replay) (hs : s.flash.slotLog = .empty) (he : s.flash.erase = none) :
    replayRead addr r s =
      { s with
        log := { s.log with replay := some r }
        flash := { s.flash with slotLog := .pending (.read addr 128) } } := by
  rw [replayRead, place_of_idle _ (by exact hs) (by exact he)]
  rfl

/-- R92 to R94: a position of the log is taken; the next one is read, or the log has ended. -/
theorem replayTake_walk {w w1 : ReplayWalk} {bs : List Byte} (h : s.log.replay = some (.walk w)) (h1 : walkPosition w bs = w1) :
    replayTake bs s =
      if w1.position < 512 then replayRead (positionAddr w1.area w1.position) (.walk w1) s else endReplay w1 s := by
  subst h1
  rw [replayTake, h]
  rfl

/-- R91: the next of the four positions is read. -/
theorem replayTake_heads {read : List (List Byte)} {bs : List Byte} (h : s.log.replay = some (.heads read))
    (hl : read.length < 3) : replayTake bs s = replayRead (headAddr (read.length + 1)) (.heads (read ++ [bs])) s := by
  rw [replayTake, h]
  match read, hl with
  | [], _ => rfl
  | [_], _ => rfl
  | [_, _], _ => rfl

theorem replayTake_lastHead {h0 b0 h1 bs : List Byte} (h : s.log.replay = some (.heads [h0, b0, h1])) :
    replayTake bs s = chooseArea h0 b0 h1 bs s := by
  rw [replayTake, h]

theorem headAddr_next {k : Nat} (h : k < 3) : headAddr (k + 1) = [0x0FF0080, 0x1FF0000, 0x1FF0080].getD k 0 := by
  match k, h with
  | 0, _ => rfl
  | 1, _ => rfl
  | 2, _ => rfl

/-- R93, R94: the log has ended: what it gives is handed over, and the trial step comes next. -/
theorem endReplay_eq (w : ReplayWalk) (s : State) :
    endReplay w s =
      { s with
        map := { s.map with entries := banksFrom w.summary.bitmap s.map.entries }
        log :=
          { s.log with
            area := some w.area, generation := some w.generation, position := w.miss.getD 512, nextSeq := w.last + 1,
            summary := w.summary, append := none, replay := none }
        image := (handOver w.summary s).image
        seq := { s.seq with phase := .trialStep, work := .notBegun, scanResult := some .replayed } } := rfl

theorem endScan_eq (result : ScanResult) (ph : StartPhase) (s : State) :
    endScan result ph s =
      { s with
        log := { s.log with replay := none }
        seq := { s.seq with phase := ph, work := .notBegun, scanResult := some result } } := rfl

theorem usableArea_iff (header base : List Byte) (generation seq : Word32) (summary : LogSummary) :
    usableArea header base = some (generation, seq, summary) ↔
      areaGeneration header = some generation ∧ validRecord base = some (seq, .base summary) := by
  have hbase : validBase base = some (seq, summary) ↔ validRecord base = some (seq, .base summary) := by
    unfold validBase
    cases validRecord base with
    | none => simp
    | some r =>
      obtain ⟨q, body⟩ := r
      cases body <;> simp
  rw [← hbase, usableArea]
  cases areaGeneration header with
  | none => simp
  | some g =>
    cases validBase base with
    | none => simp
    | some b =>
      obtain ⟨q, sm⟩ := b
      simp

theorem chooseArea_zero {h0 b0 h1 b1 : List Byte} {u : Word32 × Word32 × LogSummary} (hu : usableArea h0 b0 = some u)
    (hv : ∀ v, usableArea h1 b1 = some v → prefersOne u v = false) :
    chooseArea h0 b0 h1 b1 s = replayRead (positionAddr .zero 2) (.walk (startWalk .zero u)) s := by
  rw [chooseArea, hu]
  cases h : usableArea h1 b1 with
  | none => rfl
  | some v => simp only [hv v h, Bool.false_eq_true, if_false]; rfl

theorem chooseArea_one {h0 b0 h1 b1 : List Byte} {v : Word32 × Word32 × LogSummary} (hv : usableArea h1 b1 = some v)
    (hu : ∀ u, usableArea h0 b0 = some u → prefersOne u v = true) :
    chooseArea h0 b0 h1 b1 s = replayRead (positionAddr .one 2) (.walk (startWalk .one v)) s := by
  rw [chooseArea, hv]
  cases h : usableArea h0 b0 with
  | none => rfl
  | some u => simp only [hu u h, if_true]; rfl

/-- R91: area 1 is preferred by its generation, then by the sequence number of its BASE. -/
theorem prefersOne_iff (u v : Word32 × Word32 × LogSummary) :
    prefersOne u v = true ↔ u.1.toNat < v.1.toNat ∨ (u.1 = v.1 ∧ u.2.1.toNat < v.2.1.toNat) := by
  simp [prefersOne]

theorem prefersOne_eq_false {u v : Word32 × Word32 × LogSummary}
    (h : ¬(u.1.toNat < v.1.toNat ∨ (u.1 = v.1 ∧ u.2.1.toNat < v.2.1.toNat))) : prefersOne u v = false := by
  rwa [← prefersOne_iff, Bool.not_eq_true] at h

/-- R95: what a blank flash is, header by header and position by position. -/
theorem blankFlash_iff (h0 b0 h1 b1 : List Byte) :
    blankFlash h0 b0 h1 b1 = true ↔
      (erasedBytes h1 = true ∧ erasedBytes b1 = true) ∧
        (erasedBytes h0 = true ∨ areaGeneration h0 = some 1 ∨ (erasedBytes h0 = false ∧ areaGeneration h0 = none)) ∧
        (erasedBytes b0 = true ∨ (erasedBytes b0 = false ∧ validRecord b0 = none)) := by
  simp [blankFlash, tornHeader, tornRecord, and_assoc, or_assoc]

/-- Settles O31. -/
theorem replayReadsOnAndHandsOver : Obligations.ReplayReadsOnAndHandsOver := by
  unfold Obligations.ReplayReadsOnAndHandsOver
  refine ⟨fun s w w1 a n hr hread he hw => ?walk, fun s read a n hr hread he hl => ?heads, usableArea_iff,
    fun s h0 b0 h1 b1 a n hr hread he hb => ?choice, fun s h0 b0 h1 b1 a n hr hread he hb hok hu hv => ?neither⟩
  case walk =>
    have hafter : ((s.setFlash (s.flash.endTransfer .log)).log.replay) = some (.walk w) := hr
    rw [exec_replayReadComplete hr hread he, replayTake_walk hafter hw]
    refine ⟨fun hlt => ?_, fun hend => ?_⟩
    · rw [if_pos hlt, replayRead_eq _ _ rfl (by exact he)]
      rfl
    · rw [if_neg (by omega), endReplay_eq]
      exact ⟨_, rfl, fun seg hseg hlen => entryOf_banksFrom _ (hlen ▸ hseg), rfl⟩
  case heads =>
    have hafter : ((s.setFlash (s.flash.endTransfer .log)).log.replay) = some (.heads read) := hr
    rw [exec_replayReadComplete hr hread he, replayTake_heads hafter hl, headAddr_next hl, replayRead_eq _ _ rfl (by exact he)]
    rfl
  case choice =>
    have hafter : ((s.setFlash (s.flash.endTransfer .log)).log.replay) = some (.heads [h0, b0, h1]) := hr
    have hwalk (area : Area) (u : Word32 × Word32 × LogSummary)
        (hc : ∀ x : State, chooseArea h0 b0 h1 b1 x = replayRead (positionAddr area 2) (.walk (startWalk area u)) x) :
        exec .replayReadComplete s =
          .next { s with
                  log :=
                    { s.log with
                      replay :=
                        some
                          (.walk
                            { area := area, generation := u.1, position := 2, last := u.2.1, summary := u.2.2,
                              miss := none }) }
                  flash := { s.flash with transfer := none, slotLog := .pending (.read (areaBase area + 0x100) 128) } } := by
      rw [exec_replayReadComplete hr hread he, replayTake_lastHead hafter, hb, hc, replayRead_eq _ _ rfl (by exact he)]
      rfl
    refine ⟨fun u hu hv => hwalk .zero u fun x => chooseArea_zero hu (by simp [hv]),
      fun u hu hv => hwalk .one u fun x => chooseArea_one hv (by simp [hu]), fun g0 n0 m0 g1 n1 m1 hu hv => ?_⟩
    refine ⟨fun h => hwalk .zero _ fun x => chooseArea_zero hu fun v h1 => ?_,
      fun h => hwalk .one _ fun x => chooseArea_one hv fun u h1 => ?_,
      fun hg h => hwalk .zero _ fun x => chooseArea_zero hu fun v h1 => ?_,
      fun hg h => hwalk .one _ fun x => chooseArea_one hv fun u h1 => ?_⟩
    · cases hv.symm.trans h1
      refine prefersOne_eq_false (not_or.mpr ⟨Nat.not_lt.mpr (Nat.le_of_lt h), fun hand => ?_⟩)
      have hg : g0 = g1 := hand.1
      exact Nat.lt_irrefl _ (hg ▸ h)
    · cases hu.symm.trans h1
      exact (prefersOne_iff _ _).mpr (.inl h)
    · cases hv.symm.trans h1
      subst hg
      exact prefersOne_eq_false (not_or.mpr ⟨Nat.lt_irrefl _, fun hand => Nat.not_lt.mpr h hand.2⟩)
    · cases hu.symm.trans h1
      exact (prefersOne_iff _ _).mpr (.inr ⟨hg, h⟩)
  case neither =>
    have hafter : ((s.setFlash (s.flash.endTransfer .log)).log.replay) = some (.heads [h0, b0, h1]) := hr
    refine ⟨_, exec_replayReadComplete hr hread he, ?_⟩
    rw [replayTake_lastHead hafter, hb, chooseArea, hu, hv, ← blankFlash_iff]
    dsimp only
    split
    · next hblank => exact ⟨rfl, rfl, rfl, rfl, fun _ => ⟨rfl, hok, rfl⟩, fun h => absurd hblank h⟩
    · next hblank =>
      have hlock : (handOver LogSummary.initial (s.setFlash (s.flash.endTransfer .log))).log.lock = .ok := hok
      rw [logCorrupt, if_pos hlock, endScan_eq]
      exact ⟨rfl, rfl, rfl, rfl, fun h => absurd h hblank, fun _ => ⟨rfl, rfl, rfl⟩⟩

/-! ### The trial step and the check (O32, O33) -/

theorem exec_trialStep (hp : s.seq.phase = .trialStep) (hw : s.seq.work = .notBegun) :
    exec .trialStep s = .next (trialStep s) := if_pos (atPhase_notBegun hp hw)

/-- A phase that is left before its work has begun is followed by one whose work has not begun. -/
theorem enterPhase_of_notBegun (ph : StartPhase) (hw : s.seq.work = .notBegun) :
    enterPhase ph s = { s with seq := { s.seq with phase := ph } } := by
  rw [enterPhase, ← hw]
  rfl

/-- Settles O32. -/
theorem trialStepCountsOrExpires : Obligations.TrialStepCountsOrExpires := by
  unfold Obligations.TrialStepCountsOrExpires
  intro s hp hw
  rw [exec_trialStep hp hw, trialStep]
  refine ⟨fun ht => ?_, fun ht hc => ?_, fun ht hc hv => ?_, fun ht hc hv => ?_⟩
  · rw [if_pos ht, enterPhase_of_notBegun _ hw]
  · rw [if_neg (Classical.not_not.mpr ht), if_pos hc]
    rfl
  · rw [if_neg (Classical.not_not.mpr ht), if_neg (hc ▸ Nat.lt_irrefl _), if_pos hv]
    rfl
  · rw [if_neg (Classical.not_not.mpr ht), if_neg (hc ▸ Nat.lt_irrefl _), hv, if_neg Bool.false_ne_true,
      enterPhase_of_notBegun _ (by exact hw)]
    rfl

/-- Settles O33. -/
theorem checkBeginsWithTheHeader : Obligations.CheckBeginsWithTheHeader := by
  unfold Obligations.CheckBeginsWithTheHeader
  intro s hp hw
  have hexec : exec .check s = if s.seq.straps.chkEn = false ∨ s.image.state = .virgin
      then .next (s.setSeq { s.seq with work := .ended })
      else .next (startHeader .sequencer (s.setSeq { s.seq with work := .running, checkPass := .first })) :=
    if_pos (atPhase_notBegun hp hw)
  rw [hexec]
  refine ⟨fun h => if_pos h, fun hc hi hs he => ?_⟩
  rw [if_neg (by simp [hc, hi]), startHeader, placeChunk]
  show Host.Outcome.next (place .work _ _) = _
  rw [place_of_idle _ (by exact hs) (by exact he)]
  rfl

end

end Sys2Proof.Machine
end

section
/-!
PROOF of O34 to O38: the reads of the hosts. Each operation of a read transfer has its equation (`formChunk_mapped`,
`firstChunk_pins`, `deliver_eq` and their kin); a request that a port takes when it has become READY is one that arrives then.
-/

namespace Sys2Proof.Machine

section
variable {p : Port} {s : State} {t : HostTransfer}

/-! ### Held requests (O34, O36) -/

theorem takeHeld_nil (clocks : Nat) (h : (s.port p).held = []) : takeHeld p clocks s = s := by
  have hsame : ({ s.port p with held := [] } : HostPort) = s.port p := by rw [← h]
  rw [takeHeld, h, updatePort, hsame, setPort_port]
  rfl

theorem takeHeld_one {r : HostRequest} (clocks : Nat) (h : (s.port p).held = [r]) :
    takeHeld p clocks s = takeRequest p (withClocks clocks r) (s.setPort p { s.port p with held := [] }) := by
  rw [takeHeld, h]
  rfl

/-- A request that a READY port takes is one that arrives at it. -/
theorem takeRequest_of_ready (r : HostRequest) (h : (s.port p).state = .ready) :
    exec (requestCommand p r) s = .next (takeRequest p r s) := by
  rw [exec_requestCommand, arrive_ready p r s h, takeRequest, h]

theorem foldl_takeRequest_onlyHost (p : Port) : ∀ (rs : List HostRequest) (s : State),
    OnlyHost p s (rs.foldl (fun x r => takeRequest p r x) s)
  | [], s => .refl p s
  | r :: rs, s => (takeRequest_onlyHost p r s).trans (foldl_takeRequest_onlyHost p rs _)

theorem takeHeld_other (p : Port) (clocks : Nat) (s : State) :
    (takeHeld p clocks s).port (otherPort p) = s.port (otherPort p) :=
  ((updatePort_onlyHost p _ s).trans (foldl_takeRequest_onlyHost p _ _)).other

/-- R125: when one port alone holds requests, the order in which the two ports take theirs does not matter. -/
theorem takeHeld_both (x : Release) (h : (s.port (otherPort p)).held = []) :
    takeHeld (otherPort x.first) (releaseClocks x (otherPort x.first)) (takeHeld x.first (releaseClocks x x.first) s) =
      takeHeld p (releaseClocks x p) s := by
  by_cases hf : x.first = p
  · rw [hf, takeHeld_nil]
    rw [takeHeld_other, h]
  · have hother : x.first = otherPort p := by
      revert hf
      cases x.first <;> cases p <;> simp [otherPort]
    rw [hother, takeHeld_nil _ h, otherPort_otherPort]

/-- R126: IMAGE_OK at SERVING, as one condition. -/
theorem imageOkAtServing_eq (s : State) :
    imageOkAtServing s =
      decide (s.image.state ≠ .virgin ∧ s.faults.trialExpired = false ∧
        (s.seq.straps.chkEn = false ∨ s.seq.checkResult = .passed)) := by
  unfold imageOkAtServing
  cases s.faults.trialExpired <;> cases s.seq.straps.chkEn <;> simp

theorem exec_serving (x : Release) (hp : s.seq.phase = .check) (hw : s.seq.work = .ended)
    (h : (s.port (otherPort p)).held = []) :
    exec (.serving x) s = .next (takeHeld p (releaseClocks x p) (served s)) := by
  have hother : ((served s).port (otherPort p)).held = [] := by
    rw [served_port]
    exact h
  rw [← takeHeld_both x hother]
  exact if_pos ⟨hp, hw⟩

/-- R125: both ports leave HELD for READY. -/
theorem served_eq (h0 : s.hp0.state = .held) (h1 : s.hp1.state = .held) :
    served s =
      { s with
        seq := { s.seq with phase := .serving }
        image := { s.image with imageOk := imageOkAtServing s }
        hp0 := { s.hp0 with state := .ready }
        hp1 := { s.hp1 with state := .ready } } := by
  simp [served, releasePort, updatePort, State.port, State.setPort, State.setSeq, State.setImage, h0, h1]

/-- Settles O34. -/
theorem servingReleasesThePorts : Obligations.ServingReleasesThePorts := by
  unfold Obligations.ServingReleasesThePorts
  intro s x p hph hw h0 h1 hother
  rw [exec_serving x hph hw hother, served_eq h0 h1, imageOkAtServing_eq]
  refine ⟨fun hnil => ?_, fun r hr => ?_⟩
  · rw [takeHeld_nil]
    · cases p <;> simp only [State.port, otherPort] at hnil hother <;> simp only [hnil, hother]
    · cases p <;> exact hnil
  · rw [takeHeld_one (r := r), takeRequest_of_ready]
    · cases p <;> simp only [State.port, otherPort] at hother <;> simp only [hother] <;> rfl
    · cases p <;> rfl
    · cases p <;> exact hr

/-! ### The operations of a read transfer -/

/-- R130, R137, R140: a READ placed into an empty slot is pending, and an erase that is RUNNING with budget left becomes
SUSPENDING. -/
theorem place_read_of_empty {c : Client} (x n : Nat) (hs : s.flash.slot c = .empty) :
    place c (.read x n) s =
      s.setFlash
        { s.flash.setSlot c (.pending (.read x n)) with
          erase :=
            s.flash.erase.map (fun (e : FlashErase) =>
              if e.condition = .running ∧ e.suspends < 32 then { e with condition := .suspending } else e) } := by
  rw [place, FlashPort.place, if_pos hs, FlashPort.settle_of_readPending (readPending_true _ c x n (slot_setSlot _ _ _)),
    setSlot_erase]
  rfl

/-- R132, R150: a chunk of a mapped segment is translated at its first byte, and its READ is placed. -/
theorem formChunk_mapped (ht : (s.port p).transfer = some t) (h : segOf t.chunkAddr < 255) :
    formChunk p s =
      place (portClient p)
        (.read (translate (chunkView p t s.session) s.map.entries (segOf t.chunkAddr) (offsetOf t.chunkAddr))
          (256 - t.chunkAddr.toNat % 256)) s := by
  rw [formChunk, ht]
  exact if_pos h

/-- R150: a chunk of segment 255 is put into the buffer as 0xFF bytes. -/
theorem formChunk_ones (ht : (s.port p).transfer = some t) (h : segOf t.chunkAddr = 255) :
    formChunk p s =
      s.setPort p
        { s.port p with
          transfer := some { t with buffer := t.buffer ++ List.replicate (256 - t.chunkAddr.toNat % 256) 0xFF } } := by
  rw [formChunk, ht]
  exact if_neg (by rw [h]; decide)

theorem place_setPort (c : Client) (a : Access) (p : Port) (q : HostPort) (s : State) :
    place c a (s.setPort p q) = (place c a s).setPort p q := by cases p <;> rfl

/-- R14: the first chunk pins the epoch. -/
theorem firstChunk_pins (ht : (s.port p).transfer = some t) (he : t.epoch = none) (hend : t.ended = false)
    (hsw : s.map.switch = none) :
    firstChunk p s =
      formChunk p
        (State.setPort { s with map := { s.map with pinned := s.map.pinned + 1 } } p
          { s.port p with transfer := some { t with epoch := some s.map.epoch } }) := by
  rw [firstChunk, ht]
  dsimp only
  rw [if_pos ⟨he, hend, hsw⟩]
  cases p <;> rfl

/-- R16: while a switch is pending the first chunk is held. -/
theorem firstChunk_held (hsw : s.map.switch ≠ none) : firstChunk p s = s := by
  rw [firstChunk]
  cases (s.port p).transfer with
  | none => rfl
  | some t => exact if_neg fun h => hsw h.2.2

theorem deliver_eq (n : Nat) (ht : (s.port p).transfer = some t) (hend : t.ended = false) :
    deliver p n s =
      s.setPort p
        { s.port p with
          dataOut := clockedOut t.buffer n
          transfer :=
            some { t with next := t.next + BitVec.ofNat 24 (min n t.buffer.length), buffer := t.buffer.drop n } } := by
  rw [deliver, ht]
  simp [hend, updatePort]

/-- R144: from an empty buffer nothing is delivered. -/
theorem deliver_empty (n : Nat) (ht : (s.port p).transfer = some t) (hend : t.ended = false) (hb : t.buffer = []) :
    deliver p n s = s.setPort p { s.port p with dataOut := List.replicate n 0xFF } := by
  have hsame : { t with next := t.next + BitVec.ofNat 24 (min n t.buffer.length), buffer := t.buffer.drop n } = t := by
    obtain ⟨next, rule, epoch, buffer, arrived, ended⟩ := t
    subst hb
    simp
  rw [deliver_eq n ht hend, hsame, hb, ← ht]
  simp [clockedOut]

theorem clockedOut_replicate (k n : Nat) : clockedOut (List.replicate k 0xFF) n = List.replicate n 0xFF := by
  rw [clockedOut, List.length_replicate, List.replicate_append_replicate, List.take_replicate]
  congr 1
  omega

/-- R10: the view of a transfer under the rule of the owner, or under the stable rule for any other port. -/
theorem chunkView_of_rule (x : Session) :
    (if (if x.owner = some p then ViewRule.owner else .stable) = .owner ∧ x.state = .active ∧ x.owner = some p then
        View.update else .stable) =
      if x.state = .active ∧ x.owner = some p then .update else .stable := by
  by_cases ho : x.owner = some p <;> simp [ho]

theorem chunkAddr_of_nil (h : t.buffer = []) : t.chunkAddr = t.next := by simp [HostTransfer.chunkAddr, h]

/-! ### ARRAY READ (O35) -/

/-- The transfer of an ARRAY READ before its first chunk. -/
def newTransfer (p : Port) (a : LogicalAddr) (s : State) : HostTransfer :=
  { next := a, rule := if s.session.owner = some p then .owner else .stable, epoch := none, buffer := [], arrived := 0,
    ended := false }

theorem exec_arrayRead (p : Port) (a : LogicalAddr) (clocks : Nat) (h : (s.port p).state = .ready) :
    exec (.arrayRead p a clocks) s =
      .next (deliver p clocks
        (firstChunk p (s.setPort p { s.port p with state := .transfer, transfer := some (newTransfer p a s) }))) :=
  congrArg Host.Outcome.next (arrive_ready p (.arrayRead a clocks) s h)

/-- The part with one more transfer pinned. -/
def State.withPin (s : State) : State := { s with map := { s.map with pinned := s.map.pinned + 1 } }

/-- R14, R16: an ARRAY READ with no switch pending, up to the first chunk. -/
theorem firstChunk_newTransfer (a : LogicalAddr) (hsw : s.map.switch = none) :
    firstChunk p (s.setPort p { s.port p with state := .transfer, transfer := some (newTransfer p a s) }) =
      formChunk p
        (s.withPin.setPort p
          { s.port p with
            state := .transfer, transfer := some { newTransfer p a s with epoch := some s.map.epoch } }) := by
  rw [firstChunk_pins (t := newTransfer p a s) (by rw [port_setPort]) rfl rfl (by simpa using hsw)]
  cases p <;> rfl

/-- Settles O35. -/
theorem arrayReadFormsItsFirstChunk : Obligations.ArrayReadFormsItsFirstChunk := by
  unfold Obligations.ArrayReadFormsItsFirstChunk
  intro p a clocks s hr
  have haddr : HostTransfer.chunkAddr { newTransfer p a s with epoch := some s.map.epoch } = a := chunkAddr_of_nil rfl
  rw [exec_arrayRead p a clocks hr]
  refine ⟨fun hsw hseg hslot => ?_, fun hsw hseg => ?_, fun hsw => ?_⟩
  · rw [firstChunk_newTransfer a hsw, formChunk_mapped (by rw [port_setPort]) (by rwa [haddr]), place_setPort,
      place_read_of_empty _ _ (by exact hslot), deliver_empty clocks (by rw [port_setPort]) rfl rfl, setPort_setPort,
      port_setPort, haddr, chunkView, setPort_session, setPort_map, ← chunkView_of_rule]
    rfl
  · rw [firstChunk_newTransfer a hsw, formChunk_ones (by rw [port_setPort]) (by rwa [haddr]), setPort_setPort,
      deliver_eq clocks (by rw [port_setPort]) rfl, setPort_setPort, port_setPort, haddr]
    simp only [newTransfer, port_setPort, List.nil_append, clockedOut_replicate, List.length_replicate, List.drop_replicate]
    rfl
  · rw [firstChunk_held (by simpa using hsw), deliver_empty (t := newTransfer p a s) clocks (by rw [port_setPort]) rfl rfl,
      setPort_setPort, port_setPort]
    rfl

/-! ### The chunks of a transfer (O36) -/

theorem arrivingBytes_length_le (p : Port) (t : HostTransfer) (k : Nat) (s : State) {a n : Nat}
    (h : s.flash.readInFlight (portClient p) = some (a, n)) (he : s.flash.erase = none) :
    (arrivingBytes p t k s).length = min k (n - 1 - t.arrived) := by
  rw [arrivingBytes_of_read h, readFlash_of_no_erase a n he]
  simp
  omega

/-- R144, R150: with no READ in flight the host clocks out of the buffer. -/
theorem clockBytes_of_no_read (x : Clocking) (ht : (s.port p).transfer = some t) (hend : t.ended = false)
    (h : s.flash.readInFlight (portClient p) = none) :
    clockBytes p x s =
      s.setPort p
        { s.port p with
          dataOut := clockedOut t.buffer x.clocks
          transfer :=
            some
              { t with
                next := t.next + BitVec.ofNat 24 (min x.clocks t.buffer.length), buffer := t.buffer.drop x.clocks } } := by
  rw [clockBytes_eq ht hend, arrivingBytes_of_no_read h]
  simp

/-- R134, R144, R150: with a READ in flight the bytes that have arrived are clocked out behind those of the buffer. -/
theorem clockBytes_of_read {a n : Nat} (x : Clocking) (ht : (s.port p).transfer = some t) (hend : t.ended = false)
    (h : s.flash.readInFlight (portClient p) = some (a, n)) (he : s.flash.erase = none) :
    let come := min x.arrived (n - 1 - t.arrived)
    let held := t.buffer ++ ((memReadBytes s.mem a n).drop t.arrived).take come
    clockBytes p x s =
      s.setPort p
        { s.port p with
          dataOut := clockedOut held x.clocks
          transfer :=
            some
              { t with
                next := t.next + BitVec.ofNat 24 (min x.clocks held.length)
                buffer := held.drop x.clocks
                arrived := t.arrived + come } } := by
  intro come held
  have hbytes : arrivingBytes p t x.arrived s = ((memReadBytes s.mem a n).drop t.arrived).take come := by
    rw [arrivingBytes_of_read h, readFlash_of_no_erase a n he]
  have hlen := arrivingBytes_length_le p t x.arrived s h he
  rw [clockBytes_eq ht hend, hlen, hbytes]

theorem mayFormChunk_of_low {epoch : Word32} (ht : (s.port p).transfer = some t) (hep : t.epoch = some epoch)
    (hend : t.ended = false) (hs : s.flash.slot (portClient p) = .empty) (hb : t.buffer.length ≤ 256) :
    mayFormChunk p s = true := by
  rw [mayFormChunk, ht]
  simp only [hep, hend, hs, Option.isSome_some, Bool.not_false, decide_true, Bool.and_true, Bool.true_and, decide_eq_true_eq]
  exact hb

theorem mayFormChunk_of_waiting (h : s.flash.slot (portClient p) ≠ .empty) : mayFormChunk p s = false := by
  rw [mayFormChunk]
  cases (s.port p).transfer with
  | none => rfl
  | some t => simp [h]

theorem finishReadThen_false (c : Client) (a n : Nat) (f : State → State) (s : State) :
    finishReadThen false c a n f s = f (finishRead c a n s) := if_neg Bool.false_ne_true

theorem finishReadThen_true (c : Client) (a n : Nat) (f : State → State) (s : State) :
    finishReadThen true c a n f s = lookAfterRead (f (endRead c a n s)) := if_pos rfl

theorem exec_hostChunkRead {a n : Nat} (x : ChunkEnd) (h : s.flash.readInFlight (portClient p) = some (a, n)) :
    exec (.hostChunkReadComplete p x) s =
      .next (finishReadThen x.nextFirst (portClient p) a n (hostChunkThen p x (readFlash s a n)) s) := by
  show execHostChunkReadComplete p x s = _
  rw [execHostChunkReadComplete, h]

theorem hostChunkThen_false (clocks : Nat) (bytes : List Byte) :
    hostChunkThen p { nextFirst := false, clocks := clocks } bytes s = hostChunkDone p clocks bytes s := rfl

theorem hostChunkThen_true (clocks : Nat) (bytes : List Byte) (h : mayFormChunk p (hostChunkDone p clocks bytes s) = true) :
    hostChunkThen p { nextFirst := true, clocks := clocks } bytes s = formChunk p (hostChunkDone p clocks bytes s) :=
  if_pos h

/-- R134: a completed READ leaves no READ of its client in flight, and its slot empty. -/
theorem exec_hostChunkReadComplete {a n : Nat} (clocks : Nat) (h : s.flash.readInFlight (portClient p) = some (a, n))
    (he : s.flash.erase = none) :
    exec (.hostChunkReadComplete p { nextFirst := false, clocks := clocks }) s =
      .next (hostChunkDone p clocks (memReadBytes s.mem a n) (s.setFlash (s.flash.endTransfer (portClient p)))) := by
  rw [exec_hostChunkRead _ h, finishReadThen_false, finishRead_of_no_erase _ _ _ he, readFlash_of_no_erase _ _ he,
    hostChunkThen_false]

theorem hostChunkDone_of_reading (clocks : Nat) (bytes : List Byte) (ht : (s.port p).transfer = some t) (hend : t.ended = false) :
    hostChunkDone p clocks bytes s =
      s.setPort p
        { s.port p with transfer := some { t with buffer := t.buffer ++ bytes.drop t.arrived, arrived := 0 } } := by
  rw [hostChunkDone, ht]
  simp [hend, updatePort]

theorem hostChunkDone_of_ended (clocks : Nat) (bytes : List Byte) (ht : (s.port p).transfer = some t) (hend : t.ended = true) :
    hostChunkDone p clocks bytes s =
      takeHeld p clocks (s.setPort p { s.port p with transfer := none, state := .ready }) := by
  rw [hostChunkDone, ht]
  exact if_pos hend

theorem endRead_of_no_erase (c : Client) (a n : Nat) (h : s.flash.erase = none) :
    endRead c a n s = s.setFlash (s.flash.endTransfer c) := by
  simp [endRead, underErase_of_no_erase h, State.setFlash]

theorem lookAfterRead_of_no_erase (h : s.flash.erase = none) : lookAfterRead s = s := by
  rw [lookAfterRead, settle_of_no_erase h]
  rfl

theorem mayFormChunk_of_none (h : (s.port p).transfer = none) : mayFormChunk p s = false := by
  rw [mayFormChunk, h]

/-- R151: with the last READ of an ended transfer the port becomes READY, and forms no chunk. -/
theorem hostChunkThen_of_ended (x : ChunkEnd) (bytes : List Byte) (ht : (s.port p).transfer = some t) (hend : t.ended = true)
    (hheld : (s.port p).held = []) :
    hostChunkThen p x bytes s = s.setPort p { s.port p with transfer := none, state := .ready } := by
  have hdone : hostChunkDone p x.clocks bytes s = s.setPort p { s.port p with transfer := none, state := .ready } := by
    rw [hostChunkDone_of_ended _ _ ht hend]
    exact takeHeld_nil _ (by rw [port_setPort]; exact hheld)
  rw [hostChunkThen, hdone, mayFormChunk_of_none (by rw [port_setPort]), Bool.and_false]
  rfl

/-- Settles O36. -/
theorem chunksFollowTheBuffer : Obligations.ChunksFollowTheBuffer := by
  unfold Obligations.ChunksFollowTheBuffer
  intro p s t ht
  refine ⟨fun arrived clocks epoch hend hep hslot hread hlow => ?forms, fun a n he hread => ⟨fun hend hslot arrived clocks => ?_,
    fun hend clocks => ?_, fun hend hheld nextFirst clocks => ?_, fun r hend hheld clocks => ?_⟩⟩
  case forms =>
    intro rest next chunk
    have hmay : mayFormChunk p (clockBytes p { arrived := arrived, clocks := clocks } s) = true := by
      rw [clockBytes_of_no_read _ ht hend hread]
      refine mayFormChunk_of_low (t := { t with next := next, buffer := rest }) (by rw [port_setPort]) hep hend
        (by rwa [setPort_flash]) ?_
      rw [List.length_drop]
      omega
    have hexec : exec (.nextChunk p { arrived := arrived, clocks := clocks }) s =
        .next (formChunk p (clockBytes p { arrived := arrived, clocks := clocks } s)) := if_pos hmay
    rw [hexec, clockBytes_of_no_read _ ht hend hread]
    refine ⟨fun hseg => ?_, fun hseg => ?_⟩
    · rw [formChunk_mapped (t := { t with next := next, buffer := rest }) (by rw [port_setPort]) (by exact hseg),
        place_setPort, place_read_of_empty _ _ hslot]
      simp only [chunkView, setPort_session, setPort_map]
      rfl
    · rw [formChunk_ones (t := { t with next := next, buffer := rest }) (by rw [port_setPort]) (by exact hseg),
        setPort_setPort, port_setPort]
      rfl
  · have hmay : mayFormChunk p (clockBytes p { arrived := arrived, clocks := clocks } s) = false := by
      rw [clockBytes_of_read _ ht hend hread he]
      exact mayFormChunk_of_waiting (by rwa [setPort_flash])
    have hexec : exec (.nextChunk p { arrived := arrived, clocks := clocks }) s =
        .next (clockBytes p { arrived := arrived, clocks := clocks } s) := if_neg (by simp [hmay])
    rw [hexec, clockBytes_of_read _ ht hend hread he]
  · rw [exec_hostChunkReadComplete clocks hread he, hostChunkDone_of_reading (t := t) _ _ (by simpa using ht) hend, port_setFlash]
    rfl
  · have hafter : hostChunkThen p { nextFirst := nextFirst, clocks := clocks } (readFlash s a n)
        (s.setFlash (s.flash.endTransfer (portClient p))) =
        (s.setFlash (s.flash.endTransfer (portClient p))).setPort p { s.port p with transfer := none, state := .ready } := by
      rw [hostChunkThen_of_ended (t := t) _ _ (by simpa using ht) hend (by simpa using hheld), port_setFlash]
    rw [exec_hostChunkRead _ hread]
    cases nextFirst with
    | false =>
      rw [finishReadThen_false, finishRead_of_no_erase _ _ _ he, hafter]
      rfl
    | true =>
      rw [finishReadThen_true, endRead_of_no_erase _ _ _ he, hafter, lookAfterRead_of_no_erase]
      · rfl
      · rw [setPort_flash]
        exact (setSlot_erase _ _ _).trans he
  · rw [exec_hostChunkReadComplete clocks hread he, hostChunkDone_of_ended (t := t) _ _ (by simpa using ht) hend,
      takeHeld_one (r := r) _ (by simpa using hheld), takeRequest_of_ready _ (by rw [port_setPort]), setPort_setPort,
      port_setPort, port_setFlash]
    rfl

/-! ### READs while an erase is suspended (O37) -/

/-- A READ outside the block under erase reads what the flash holds. -/
theorem underErase_outside {f : FlashPort} {e : FlashErase} {a n : Nat} (he : f.erase = some e)
    (h : a + n ≤ e.addr ∨ e.addr + e.kind.length ≤ a) : f.underErase a n = false := by
  rw [FlashPort.underErase, he]
  exact decide_eq_false (by omega)

theorem endRead_outside {e : FlashErase} (c : Client) {a n : Nat} (he : s.flash.erase = some e)
    (h : a + n ≤ e.addr ∨ e.addr + e.kind.length ≤ a) : endRead c a n s = s.setFlash (s.flash.endTransfer c) := by
  simp [endRead, underErase_outside he h, State.setFlash]

theorem readFlash_outside {e : FlashErase} {a n : Nat} (he : s.flash.erase = some e)
    (h : a + n ≤ e.addr ∨ e.addr + e.kind.length ≤ a) : readFlash s a n = memReadBytes s.mem a n := by
  simp [readFlash, underErase_outside he h]

/-- R139: with no READ in flight or pending a suspended erase is resumed; else it stays suspended. -/
theorem settle_of_suspended {f : FlashPort} {e : FlashErase} (he : f.erase = some e) (hc : e.condition = .suspended)
    (ht : f.transfer = none) :
    f.settle = if f.readPending = true then f else { f with erase := some { e with condition := .running } } := by
  rw [FlashPort.settle, he]
  simp only [hc, ht, true_and]
  cases f.readPending <;> rfl

/-- R138, R139: a READ placed while an erase is SUSPENDED leaves it so, when the arbiter looks as well. -/
theorem lookAfterRead_place_read {e : FlashErase} {c : Client} (x n : Nat) (hs : s.flash.slot c = .empty)
    (he : s.flash.erase = some e) (hc : e.condition = .suspended) (ht : s.flash.transfer = none) :
    lookAfterRead (place c (.read x n) s) = s.setFlash (s.flash.setSlot c (.pending (.read x n))) := by
  have hpending : (s.flash.setSlot c (.pending (.read x n))).readPending = true :=
    readPending_true _ c x n (slot_setSlot _ _ _)
  have hsettle : (s.flash.setSlot c (.pending (.read x n))).settle = s.flash.setSlot c (.pending (.read x n)) := by
    rw [settle_of_suspended ((setSlot_erase _ _ _).trans he) hc ((setSlot_transfer _ _ _).trans ht), if_pos hpending]
  rw [place, FlashPort.place, if_pos hs, hsettle, lookAfterRead]
  exact congrArg s.setFlash hsettle

theorem lookAfterRead_setPort (p : Port) (q : HostPort) (s : State) :
    lookAfterRead (s.setPort p q) = (lookAfterRead s).setPort p q := by cases p <;> rfl

/-- Settles O37. -/
theorem readsHoldTheSuspension : Obligations.ReadsHoldTheSuspension := by
  unfold Obligations.ReadsHoldTheSuspension
  intro p s t e a n ht hend he hc hread hout clocks unread chunk filled ended
  have hslot : ended.slot (portClient p) = .empty := by cases p <;> rfl
  have hslots (c : Client) (hcp : c ≠ portClient p) : ended.slot c = s.flash.slot c :=
    slot_setSlot_of_ne hcp s.flash .empty
  have hend' : endRead (portClient p) a n s = s.setFlash ended := endRead_outside _ he hout
  have herase : ended.erase = some e := (setSlot_erase _ _ _).trans he
  have hlook : finishRead (portClient p) a n s =
      s.setFlash (if ended.readPending = true then ended else { ended with erase := some { e with condition := .running } }) := by
    rw [finishRead, hend', lookAfterRead]
    exact congrArg s.setFlash (settle_of_suspended herase hc rfl)
  have hfill (f : FlashPort) : hostChunkDone p clocks (memReadBytes s.mem a n) (s.setFlash f) = (s.setFlash f).setPort p filled := by
    rw [hostChunkDone_of_reading (t := t) _ _ (by simpa using ht) hend, port_setFlash]
  refine ⟨fun hno => ?_, fun ⟨c, x, k, hcp, hpending⟩ => ?_, fun hep hlow hseg => ?_⟩
  · have hnone : ended.readPending = false := by
      refine readPending_false _ fun c x hx => ?_
      by_cases hcp : c = portClient p
      · rw [hcp, hslot] at hx
        cases hx
      · rw [hslots c hcp] at hx
        cases x with
        | read addr length => exact absurd hx (hno c addr length)
        | _ => rfl
    rw [exec_hostChunkRead _ hread, finishReadThen_false, hlook, hostChunkThen_false, readFlash_outside he hout, hfill, hnone]
    rfl
  · have hsome : ended.readPending = true := readPending_true _ c x k (by rw [hslots c hcp, hpending])
    rw [exec_hostChunkRead _ hread, finishReadThen_false, hlook, hostChunkThen_false, readFlash_outside he hout, hfill, hsome]
    rfl
  · obtain ⟨epoch, hepoch⟩ := Option.isSome_iff_exists.mp hep
    have hlen : (t.buffer ++ unread).length = t.buffer.length + (n - t.arrived) := by simp [unread]
    have hmay : mayFormChunk p ((s.setFlash ended).setPort p filled) = true :=
      mayFormChunk_of_low (t := { t with buffer := t.buffer ++ unread, arrived := 0 }) (by rw [port_setPort]) hepoch hend
        (by rw [setPort_flash]; exact hslot) (by rw [hlen]; exact hlow)
    have haddr : HostTransfer.chunkAddr { t with buffer := t.buffer ++ unread, arrived := 0 } = chunk := by
      rw [HostTransfer.chunkAddr, hlen]
    rw [exec_hostChunkRead _ hread, finishReadThen_true, hend', readFlash_outside he hout,
      hostChunkThen_true _ _ (by rw [hfill]; exact hmay), hfill,
      formChunk_mapped (t := { t with buffer := t.buffer ++ unread, arrived := 0 }) (by rw [port_setPort]) (by rwa [haddr]),
      place_setPort, lookAfterRead_setPort, lookAfterRead_place_read _ _ (by exact hslot) (by exact herase) hc rfl, haddr]
    simp only [chunkView, setPort_session, setPort_map]
    rfl

/-! ### The end of a transfer (O38) -/

/-- R151: with no READ of the port granted the transfer is forgotten and the port becomes READY. -/
theorem endTransfer_of_not_granted (ht : (s.port p).transfer = some t) (hend : t.ended = false) {f : FlashPort}
    (hf : s.flash.withdraw (portClient p) = f) (hg : (f.slot (portClient p)).isGranted = false) :
    endTransfer p s = (unpin t (s.setFlash f)).setPort p { s.port p with transfer := none, state := .ready } := by
  rw [endTransfer, ht]
  simp [hend, hf, hg, updatePort, unpin_port]

/-- R151: with a READ of the port granted the port stays in TRANSFER until it completes. -/
theorem endTransfer_of_granted (ht : (s.port p).transfer = some t) (hend : t.ended = false) {a : Access}
    (hg : s.flash.slot (portClient p) = .granted a) :
    endTransfer p s =
      (unpin t s).setPort p
        { s.port p with transfer := some { t with ended := true, buffer := [], epoch := none } } := by
  have hw : s.flash.withdraw (portClient p) = s.flash := by rw [FlashPort.withdraw, hg]; rfl
  have hs : s.setFlash s.flash = s := rfl
  rw [endTransfer, ht]
  simp [hend, hw, hs, hg, updatePort, unpin_port, Slot.isGranted]

theorem withdraw_of_empty {f : FlashPort} {c : Client} (h : f.slot c = .empty) : f.withdraw c = f := by
  rw [FlashPort.withdraw, h]
  rfl

/-- R130: a pending READ is withdrawn. -/
theorem withdraw_of_pending {f : FlashPort} {c : Client} {a n : Nat} (h : f.slot c = .pending (.read a n)) (he : f.erase = none) :
    f.withdraw c = f.setSlot c .empty := by
  rw [FlashPort.withdraw, h]
  exact (if_pos rfl).trans (settle_of_no_erase ((setSlot_erase _ _ _).trans he))

theorem setSlot_slot (f : FlashPort) (c : Client) : f.setSlot c (f.slot c) = f := by cases c <;> rfl

theorem unpin_of_none (h : t.epoch = none) : unpin t s = s := by simp [unpin, h]

theorem unpin_of_some {epoch : Word32} (h : t.epoch = some epoch) :
    unpin t s = { s with map := { s.map with pinned := s.map.pinned - 1 } } := by simp [unpin, h]

/-- Settles O38. -/
theorem transferEndUnpinsTheEpoch : Obligations.TransferEndUnpinsTheEpoch := by
  unfold Obligations.TransferEndUnpinsTheEpoch
  intro p arrived clocks s t ht hend
  have hexec : exec (.transferEnd p { arrived := arrived, clocks := clocks }) s =
      .next (endTransfer p (clockBytes p { arrived := arrived, clocks := clocks } s)) := rfl
  rw [hexec]
  refine ⟨fun hep hslot hread => ?_, fun epoch hep he => ⟨fun hread hslot => ?_, fun a n hslot hread => ?_⟩⟩
  · rw [clockBytes_of_no_read _ ht hend hread,
      endTransfer_of_not_granted (by rw [port_setPort]) (by exact hend) (withdraw_of_empty (by rwa [setPort_flash]))
        (by rw [setPort_flash, hslot]; rfl), port_setPort, unpin_of_none (by exact hep)]
    cases p <;> rfl
  · have hw : s.flash.withdraw (portClient p) = s.flash.setSlot (portClient p) .empty := by
      rcases hslot with hempty | ⟨a, n, hpending⟩
      · rw [withdraw_of_empty hempty, ← hempty, setSlot_slot]
      · exact withdraw_of_pending hpending he
    rw [clockBytes_of_no_read _ ht hend hread,
      endTransfer_of_not_granted (f := s.flash.setSlot (portClient p) .empty) (by rw [port_setPort]) (by exact hend)
        (by rwa [setPort_flash]) (by rw [slot_setSlot]; rfl), port_setPort, unpin_of_some (by exact hep)]
    cases p <;> rfl
  · rw [clockBytes_of_read _ ht hend hread he,
      endTransfer_of_granted (by rw [port_setPort]) (by exact hend) (by rw [setPort_flash]; exact hslot), port_setPort,
      unpin_of_some (by exact hep)]
    cases p <;> rfl

end

end Sys2Proof.Machine
end

section
/-!
PROOF of O39 to O44: erases, programs and control words. An erase or program that passes the port-level checks reaches the
Session Controller with its port waiting (`sectorErase_passes` and its kin); what the Session Controller does with it is stated
for any waiting request.
-/

namespace Sys2Proof.Machine

section
variable {p : Port} {a : LogicalAddr} {data : List Byte} {s : State} {f : InFlight}

/-! ### The port-level checks (O39) -/

theorem clearWel_of_clear (h : (s.port p).wel = false) : updatePort p (fun q => { q with wel := false }) s = s := by
  have hsame : ({ s.port p with wel := false } : HostPort) = s.port p := by rw [← h]
  rw [updatePort, hsame, setPort_port]

theorem takeWrite_ignored {n : Nat} {decideIt : State → State} (h : (s.port p).wel = false) :
    takeWrite p a n f decideIt s = s := by
  rw [takeWrite, if_pos h, clearWel_of_clear h]

theorem takeWrite_refused {n : Nat} {decideIt : State → State} {code : Code} {seg : BitVec 8} (h : (s.port p).wel = true)
    (hc : portCheck p s.seq.straps a n = some (code, seg)) (hr : code.refuses = true) :
    takeWrite p a n f decideIt s = s.setPort p { s.port p with wel := false, refused := true, code := code, seg := seg } := by
  rw [takeWrite, if_neg (by rw [h]; decide), hc]
  simp only [updatePort, port_setPort, setPort_setPort, outcome_of_refuses hr]

/-- R149: the first check, out of range. -/
theorem portCheck_outOfRange (straps : Straps) (n : Nat) (h : segOf a = 255) :
    portCheck p straps a n = some (.outOfRange, 0xFF) := if_pos (by rw [h]; decide)

/-- R149: the second check, the end of the page. -/
theorem portCheck_pageCross (straps : Straps) {n : Nat} (hs : segOf a < 255) (h : 256 < a.toNat % 256 + n) :
    portCheck p straps a n = some (.pageCross, BitVec.ofNat 8 (segOf a)) := by
  rw [← outcomeSeg_eq]
  exact (if_neg (Nat.not_le.mpr hs)).trans (if_pos h)

/-- R149: the third check, the update port. -/
theorem portCheck_notUpdatePort {straps : Straps} {n : Nat} (hs : segOf a < 255) (h : a.toNat % 256 + n ≤ 256)
    (hu : updEnabled straps.updSel p = false) : portCheck p straps a n = some (.notUpdatePort, BitVec.ofNat 8 (segOf a)) := by
  rw [← outcomeSeg_eq]
  exact (if_neg (Nat.not_le.mpr hs)).trans ((if_neg (Nat.not_lt.mpr h)).trans (if_pos hu))

theorem exec_sectorErase (h : (s.port p).state = .ready) :
    exec (.sectorErase p a) s = .next (takeWrite p a 0 (.sectorErase a) (sessionErase p (.sectorErase a)) s) :=
  congrArg Host.Outcome.next (arrive_ready p (.sectorErase a) s h)

theorem exec_segmentErase (h : (s.port p).state = .ready) :
    exec (.segmentErase p a) s = .next (takeWrite p a 0 (.segmentErase a) (sessionErase p (.segmentErase a)) s) :=
  congrArg Host.Outcome.next (arrive_ready p (.segmentErase a) s h)

theorem exec_pageProgram (h : (s.port p).state = .ready) (hd : data ≠ []) :
    exec (.pageProgram p a data) s =
      .next (takeWrite p a data.length (.program a data) (sessionProgram p a data) s) :=
  (congrArg Host.Outcome.next (arrive_ready p (.pageProgram a data) s h)).trans
    (congrArg Host.Outcome.next (if_neg (mt List.isEmpty_iff.mp hd)))

theorem exec_pageProgram_empty (h : (s.port p).state = .ready) :
    exec (.pageProgram p a []) s = .next (s.setPort p { s.port p with wel := false }) :=
  congrArg Host.Outcome.next (arrive_ready p (.pageProgram a []) s h)

/-- Settles O39. -/
theorem portLevelChecksRefuse : Obligations.PortLevelChecksRefuse := by
  unfold Obligations.PortLevelChecksRefuse
  intro p a data s hr
  rw [exec_sectorErase hr, exec_segmentErase hr]
  refine ⟨fun hw => ⟨?_, ?_, ?_⟩, exec_pageProgram_empty hr, fun hw => ⟨fun hs => ⟨?_, ?_, fun hd => ?_⟩, fun hs hx => ?_,
    fun hs hu => ⟨?_, ?_, fun hd hx => ?_⟩⟩⟩
  · rw [takeWrite_ignored hw]
  · rw [takeWrite_ignored hw]
  · by_cases hd : data = []
    · rw [hd, exec_pageProgram_empty hr]
      exact congrArg Host.Outcome.next (clearWel_of_clear hw)
    · rw [exec_pageProgram hr hd, takeWrite_ignored hw]
  · rw [takeWrite_refused hw (portCheck_outOfRange _ _ hs) rfl]
  · rw [takeWrite_refused hw (portCheck_outOfRange _ _ hs) rfl]
  · rw [exec_pageProgram hr hd, takeWrite_refused hw (portCheck_outOfRange _ _ hs) rfl]
  · have hd : data ≠ [] := by
      rintro rfl
      simp only [List.length_nil] at hx
      omega
    rw [exec_pageProgram hr hd, takeWrite_refused hw (portCheck_pageCross _ hs hx) rfl]
  · rw [takeWrite_refused hw (portCheck_notUpdatePort hs (by omega) hu) rfl]
  · rw [takeWrite_refused hw (portCheck_notUpdatePort hs (by omega) hu) rfl]
  · rw [exec_pageProgram hr hd, takeWrite_refused hw (portCheck_notUpdatePort hs hx hu) rfl]

/-! ### Requests that reach the Session Controller -/

/-- The port-level conditions under which an erase of a segment is passed on (R149). -/
structure EraseAllowed (p : Port) (a : LogicalAddr) (s : State) : Prop where
  ready : (s.port p).state = .ready
  wel : (s.port p).wel = true
  mapped : segOf a < 255
  enabled : updEnabled s.seq.straps.updSel p = true

theorem sectorErase_passes (h : EraseAllowed p a s) :
    exec (.sectorErase p a) s =
      .next (sessionErase p (.sectorErase a) (s.setPort p ((s.port p).waiting (.sectorErase a)))) := by
  rw [exec_sectorErase h.ready, takeWrite_passes p a 0 _ _ s h.wel h.mapped (by omega) h.enabled, passOn_clearWel]

theorem segmentErase_passes (h : EraseAllowed p a s) :
    exec (.segmentErase p a) s =
      .next (sessionErase p (.segmentErase a) (s.setPort p ((s.port p).waiting (.segmentErase a)))) := by
  rw [exec_segmentErase h.ready, takeWrite_passes p a 0 _ _ s h.wel h.mapped (by omega) h.enabled, passOn_clearWel]

theorem pageProgram_passes (h : EraseAllowed p a s) (hd : data ≠ []) (hx : a.toNat % 256 + data.length ≤ 256) :
    exec (.pageProgram p a data) s =
      .next (sessionProgram p a data (s.setPort p ((s.port p).waiting (.program a data)))) := by
  rw [exec_pageProgram h.ready hd, takeWrite_passes p a _ _ _ s h.wel h.mapped hx h.enabled, passOn_clearWel]

/-- R35: the timer as it is loaded. -/
theorem loadTimer_eq (s : State) :
    loadTimer s =
      { s with
        session :=
          { s.session with timer := ((idleLimitMs s.seq.straps.idleLim).map IdleTimer.paused).getD .stopped } } := by
  rw [loadTimer]
  cases idleLimitMs s.seq.straps.idleLim <;> rfl

/-! ### Sessions begin (O40) -/

/-- R27, R28: an erase of a STABLE entry by the owner opens it. -/
theorem ownerErase_stable (hf : f.isProgram = false) (h : (s.entry (segOf f.addr)).phase = .stable) :
    ownerErase p f s = beginOpening p f (loadTimer s) := by
  cases f with
  | sectorErase a => exact if_pos h
  | segmentErase a => exact if_pos h
  | program a data => cases hf

/-- R21, R24: the first erase of a session asks for the OPEN record. -/
theorem sessionErase_starts (hf : f.isProgram = false) (ho : s.session.owner ≠ some p) (hl : s.session.lock = .free)
    (hok : s.log.lock = .ok) (he : (s.entry (segOf f.addr)).phase = .stable) :
    sessionErase p f s =
      { s with
        session :=
          { lock := .session, state := .active, owner := some p, openCount := 0, openLogged := false,
            timer := ((idleLimitMs s.seq.straps.idleLim).map IdleTimer.paused).getD .stopped, endReason := none }
        log := { s.log with queue := s.log.queue ++ [.opened] } } := by
  rw [sessionErase, ownsActive_of_not_owner ho, hl]
  dsimp only
  rw [if_neg Bool.false_ne_true, if_pos hok, ownerErase_stable hf (by exact he), loadTimer_eq, beginOpening]
  rfl

/-- R20, R40: the refusal of an erase that starts no session. -/
def eraseRefusal : UpdateLock → Code
  | .free => .updatesLocked
  | .session => .sessionOther
  | .rollback => .engineBusy

theorem sessionErase_refused (ho : s.session.owner ≠ some p) (hl : s.session.lock ≠ .free ∨ s.log.lock ≠ .ok) :
    sessionErase p f s = giveResult p (eraseRefusal s.session.lock) (outcomeSeg f.addr) s := by
  rw [sessionErase, ownsActive_of_not_owner ho, if_neg Bool.false_ne_true]
  cases hlock : s.session.lock with
  | free => exact if_neg (hl.resolve_left fun h => h hlock)
  | session => rfl
  | rollback => rfl

/-- Settles O40. -/
theorem eraseStartsASessionOrIsRefused : Obligations.EraseStartsASessionOrIsRefused := by
  unfold Obligations.EraseStartsASessionOrIsRefused
  intro p a s hr hw hs hu ho refused started
  have hall : EraseAllowed p a s := ⟨hr, hw, hs, hu⟩
  rw [sectorErase_passes hall, segmentErase_passes hall]
  have hstart (f : InFlight) (hf : f.isProgram = false) (ha : f.addr = a) (hl : s.session.lock = .free) (hok : s.log.lock = .ok)
      (he : (s.entry (segOf a)).phase = .stable) : sessionErase p f (s.setPort p ((s.port p).waiting f)) = started f := by
    have hentry : ((s.setPort p ((s.port p).waiting f)).entry (segOf f.addr)).phase = .stable := by
      rw [ha, State.entry, setPort_map]
      exact he
    rw [sessionErase_starts hf (by rwa [setPort_session]) (by rwa [setPort_session]) (by rwa [setPort_log]) hentry]
    cases p <;> rfl
  have hrefuse (f : InFlight) (ha : f.addr = a) (hl : s.session.lock ≠ .free ∨ s.log.lock ≠ .ok) :
      sessionErase p f (s.setPort p ((s.port p).waiting f)) = refused (eraseRefusal s.session.lock) := by
    rw [sessionErase_refused (by rwa [setPort_session]) (by rwa [setPort_session, setPort_log]), setPort_session, ha,
      outcomeSeg_eq]
    exact giveResult_waiting hr ho (by cases s.session.lock <;> rfl) f _
  refine ⟨fun hl hok he => ?_, fun hl hok => ?_, fun hl => ?_, fun hl => ?_⟩
  · rw [hstart (.sectorErase a) rfl rfl hl hok he, hstart (.segmentErase a) rfl rfl hl hok he]
    exact ⟨rfl, rfl⟩
  · rw [hrefuse (.sectorErase a) rfl (.inr hok), hrefuse (.segmentErase a) rfl (.inr hok), hl]
    exact ⟨rfl, rfl⟩
  all_goals
    have hne : s.session.lock ≠ .free := by simp [hl]
    rw [hrefuse (.sectorErase a) rfl (.inl hne), hrefuse (.segmentErase a) rfl (.inl hne), hl]
    exact ⟨rfl, rfl⟩

/-! ### The owner's erases (O41) -/

theorem ownsActive_of_owner (hst : s.session.state = .active) (ho : s.session.owner = some p) : ownsActive s p = true :=
  decide_eq_true ⟨hst, ho⟩

/-- R24: with the OPEN record logged the opening of a STABLE entry goes on at once. -/
theorem openSegment_eq (h : (s.entry (segOf f.addr)).phase = .stable) (hs : s.flash.slot (portClient p) = .empty)
    (he : s.flash.erase = none) :
    openSegment p f s =
      State.setEntry
        { s with
          session := { s.session with openCount := s.session.openCount + 1 }
          flash :=
            s.flash.setSlot (portClient p)
              (.pending (.blockErase (physAddr (s.entry (segOf f.addr)).bank.other (segOf f.addr) 0))) }
        (segOf f.addr)
        { s.entry (segOf f.addr) with phase := .opening, fresh := 0, damaged := false, toOpen := f.sectors } := by
  rw [openSegment]
  dsimp only
  rw [if_pos h, place_of_idle _ (by exact hs) (by exact he), updateEntry, MapEntry.openRequest, if_pos h]
  rfl

/-- R35: a paused timer runs again when its owner is answered in ACTIVE. -/
theorem resumeTimer_loaded {x : Session} (hst : x.state = .active) (ho : x.owner = some p) (limit : Option Nat) :
    Session.resumeTimer { x with timer := (limit.map IdleTimer.paused).getD .stopped } p =
      { x with timer := (limit.map IdleTimer.running).getD .stopped } := by
  unfold Session.resumeTimer
  cases limit <;> simp [hst, ho]

/-- R153: an outcome that neither refuses nor fails leaves the sticky bits. -/
theorem result_waiting_done {code : Code} (hc : code.refuses = false) (hf : code ≠ .opFailed) (q : HostPort) (f : InFlight)
    (seg : BitVec 8) :
    (q.waiting f).result code seg = { q with wel := false, code := code, seg := seg, state := .ready, inFlight := none } := by
  simp only [HostPort.result, HostPort.outcome, HostPort.toReady, HostPort.waiting, hc, hf, decide_false, Bool.false_and,
    Bool.or_false]

theorem giveResult_eq (p : Port) (code : Code) (seg : BitVec 8) (s : State) :
    giveResult p code seg s =
      State.setPort { s with session := s.session.resumeTimer p } p ((s.port p).result code seg) := by
  cases p <;> rfl

theorem setEntry_entry (s : State) (seg : Nat) : s.setEntry seg (s.entry seg) = s := by
  rw [State.setEntry, State.entry, set_entryOf]
  rfl

/-- R27: the erase of a fresh sector. -/
theorem ownerErase_freshSector (h : (s.entry (segOf a)).phase = .opened)
    (hfresh : (s.entry (segOf a)).fresh.getLsbD (sectorOf a) = true) :
    ownerErase p (.sectorErase a) s =
      place (portClient p)
        (.sectorErase (physAddr (s.entry (segOf a)).bank.other (segOf a) (sectorOf a * 0x1000))) (loadTimer s) := by
  have hph : ¬((loadTimer s).entry (segOf a)).phase = .stable := fun hst => by cases h.symm.trans hst
  exact (if_neg hph).trans (if_pos hfresh)

/-- R27: a sector that is not fresh joins the fresh mask. -/
theorem ownerErase_staleSector (h : (s.entry (segOf a)).phase = .opened)
    (hfresh : (s.entry (segOf a)).fresh.getLsbD (sectorOf a) = false) :
    ownerErase p (.sectorErase a) s =
      giveResult p .success (outcomeSeg a)
        ((loadTimer s).setEntry (segOf a)
          { s.entry (segOf a) with fresh := (s.entry (segOf a)).fresh ||| 1#16 <<< sectorOf a }) := by
  have hph : ¬((loadTimer s).entry (segOf a)).phase = .stable := fun hst => by cases h.symm.trans hst
  have hstale : ¬((loadTimer s).entry (segOf a)).fresh.getLsbD (sectorOf a) = true := fun hf => by
    cases hfresh.symm.trans hf
  have hadd : MapEntry.addSector ((loadTimer s).entry (segOf a)) (sectorOf a) =
      { s.entry (segOf a) with fresh := (s.entry (segOf a)).fresh ||| 1#16 <<< sectorOf a } := if_pos h
  rw [← hadd]
  exact (if_neg hph).trans (if_neg hstale)

/-- R28: the erase of the whole shadow of an OPEN entry. -/
theorem ownerErase_openSegment (h : (s.entry (segOf a)).phase = .opened) :
    ownerErase p (.segmentErase a) s =
      place (portClient p) (.blockErase (physAddr (s.entry (segOf a)).bank.other (segOf a) 0)) (loadTimer s) :=
  if_neg fun hst => by cases h.symm.trans hst

/-- Settles O41. -/
theorem ownerErasesActOnTheShadow : Obligations.OwnerErasesActOnTheShadow := by
  unfold Obligations.OwnerErasesActOnTheShadow
  intro p a s hr hw hs hu hst ho hlog hslot he e paused running issued whole
  have hall : EraseAllowed p a s := ⟨hr, hw, hs, hu⟩
  have howns (f : InFlight) : sessionErase p f (s.setPort p ((s.port p).waiting f)) =
      ownerErase p f (s.setPort p ((s.port p).waiting f)) :=
    if_pos (ownsActive_of_owner (by rwa [setPort_session]) (by rwa [setPort_session]))
  have hentry (f : InFlight) (seg : Nat) : (s.setPort p ((s.port p).waiting f)).entry seg = s.entry seg := by
    rw [State.entry, setPort_map]
    rfl
  have hopens (f : InFlight) (hf : f.isProgram = false) (ha : f.addr = a) (hph : e.phase = .stable) :
      ownerErase p f (s.setPort p ((s.port p).waiting f)) =
        issued f { e with phase := .opening, fresh := 0, damaged := false, toOpen := f.sectors } (s.session.openCount + 1)
          whole := by
    subst ha
    rw [ownerErase_stable hf (by rw [hentry]; exact hph), loadTimer_eq, beginOpening,
      if_pos (by rw [setPort_session]; exact hlog), openSegment_eq (by exact (congrArg MapEntry.phase (hentry f _)).trans hph)
        (by rw [setPort_flash]; exact hslot) (by rw [setPort_flash]; exact he)]
    cases p <;> rfl
  have hissue (f : InFlight) (access : Access) :
      place (portClient p) access (loadTimer (s.setPort p ((s.port p).waiting f))) =
        issued f e s.session.openCount access := by
    have hsame : issued f e s.session.openCount access =
        State.setPort
          { s with
            session := { s.session with timer := paused }
            flash := s.flash.setSlot (portClient p) (.pending access) }
          p ((s.port p).waiting f) := congrArg (State.setPort · p ((s.port p).waiting f)) (setEntry_entry _ _)
    rw [hsame, loadTimer_eq, place_of_idle _ (by rw [setPort_flash]; exact hslot) (by rw [setPort_flash]; exact he)]
    cases p <;> rfl
  rw [sectorErase_passes hall, segmentErase_passes hall, howns, howns]
  refine ⟨fun hph => ⟨?_, ?_⟩, fun hph => ⟨fun hfresh => ?_, fun hfresh => ?_, ?_⟩⟩
  · rw [hopens (.sectorErase a) rfl rfl hph]
    rfl
  · rw [hopens (.segmentErase a) rfl rfl hph]
    rfl
  · rw [ownerErase_staleSector (by rw [hentry]; exact hph) (by rw [hentry]; exact hfresh), hentry, outcomeSeg_eq,
      giveResult_eq, loadTimer_eq]
    have hport (x : State) (q : HostPort) (session : Session) (entry : MapEntry) :
        (State.setEntry { x.setPort p q with session := session } (segOf a) entry).port p = q := by cases p <;> rfl
    rw [hport, result_waiting_done rfl (by decide), ← hr]
    have hsession := resumeTimer_loaded hst ho (idleLimitMs s.seq.straps.idleLim)
    have hrunning : running = ((idleLimitMs s.seq.straps.idleLim).map IdleTimer.running).getD .stopped := rfl
    rw [hrunning, ← hsession]
    cases p <;> rfl
  · rw [ownerErase_freshSector (by rw [hentry]; exact hph) (by rw [hentry]; exact hfresh), hissue, hentry]
  · rw [ownerErase_openSegment (by rw [hentry]; exact hph), hissue, hentry]

/-! ### Programs (O42) -/

/-- R29: a program of ordinary data by the owner, START-COMMIT included, with the idle timer loaded. -/
theorem sessionProgram_owner (hst : s.session.state = .active) (ho : s.session.owner = some p)
    (h : commitWordOf a data ≠ some .abandon) : sessionProgram p a data s = ownerProgram p a data (loadTimer s) := by
  rw [sessionProgram, if_pos (ownsActive_of_owner hst ho), ownerProgramRequest, if_neg h]

/-- R22, R101: a program of a port that owns no session, without an acceptance word. -/
theorem otherProgram_refused (h : acceptanceWordOf a data = none) :
    otherProgram p a data s =
      giveResult p (if s.session.lock = .session then .sessionOther else .noSession) (outcomeSeg a) s := by
  rw [otherProgram, h, if_neg (by decide), if_neg (by decide)]
  cases s.session.lock <;> rfl

theorem sessionProgram_other (ho : s.session.owner ≠ some p) : sessionProgram p a data s = otherProgram p a data s := by
  rw [sessionProgram, ownsActive_of_not_owner ho]
  rfl

/-- R22: such a program is refused, with its port READY again. -/
theorem pageProgram_refused (hall : EraseAllowed p a s) (hd : data ≠ []) (hx : a.toNat % 256 + data.length ≤ 256)
    (ho : s.session.owner ≠ some p) (h : acceptanceWordOf a data = none) :
    exec (.pageProgram p a data) s =
      .next (s.setPort p
        { s.port p with
          wel := false, refused := true, code := if s.session.lock = .session then .sessionOther else .noSession,
          seg := BitVec.ofNat 8 (segOf a), inFlight := none }) := by
  rw [pageProgram_passes hall hd hx, sessionProgram_other (by rwa [setPort_session]), otherProgram_refused h, setPort_session,
    outcomeSeg_eq, giveResult_waiting hall.ready ho (by split <;> rfl)]

/-- Settles O42. -/
theorem programsNeedAFreshSector : Obligations.ProgramsNeedAFreshSector := by
  unfold Obligations.ProgramsNeedAFreshSector
  intro p a data s hr hw hs hd hx hu
  have hall : EraseAllowed p a s := ⟨hr, hw, hs, hu⟩
  refine ⟨?owner, ?other⟩
  case owner =>
    intro hst ho hslot he fresh issued refused
    have howner (hword : commitWordOf a data ≠ some .abandon) :
        (fresh → exec (.pageProgram p a data) s = .next issued) ∧
          (¬fresh → exec (.pageProgram p a data) s = .next refused) := by
      rw [pageProgram_passes hall hd hx,
        sessionProgram_owner (by rwa [setPort_session]) (by rwa [setPort_session]) hword, ownerProgram]
      have hallowed : programAllowed (loadTimer (s.setPort p ((s.port p).waiting (.program a data)))) a = true ↔ fresh := by
        simp only [programAllowed, loadTimer_eq, State.entry, setPort_map, Bool.and_eq_true, decide_eq_true_eq]
        rfl
      refine ⟨fun hf => ?_, fun hf => ?_⟩
      · rw [if_pos (hallowed.mpr hf), loadTimer_eq, place_of_idle _ (by rw [setPort_flash]; exact hslot)
          (by rw [setPort_flash]; exact he)]
        cases p <;> rfl
      · rw [if_neg (mt hallowed.mp hf), giveResult_eq, loadTimer_eq, outcomeSeg_eq]
        have hport (x : State) (q : HostPort) (session : Session) :
            (State.port { x.setPort p q with session := session } p) = q := by cases p <;> rfl
        have hrefused : refused =
            State.setPort
              { s with
                session :=
                  Session.resumeTimer
                    { s.session with timer := ((idleLimitMs s.seq.straps.idleLim).map IdleTimer.paused).getD .stopped } p }
              p
              { s.port p with
                wel := false, inFlight := none, refused := true, code := .sectorNotFresh,
                seg := BitVec.ofNat 8 (segOf a) } := by
          rw [resumeTimer_loaded hst ho]
        rw [hport, result_waiting rfl, hrefused, ← hr]
        cases p <;> rfl
    refine ⟨howner, fun ha hdata => ?_⟩
    subst ha hdata
    exact howner (by decide)
  case other =>
    intro ho hword refused
    have hcontrol (d : List Byte) (hd : d ≠ []) (hx : (0x000FF0 : LogicalAddr).toNat % 256 + d.length ≤ 256)
        (hword : acceptanceWordOf 0x000FF0 d = none) : exec (.pageProgram p 0x000FF0 d) s = .next (refused 0) :=
      pageProgram_refused ⟨hr, hw, by decide, hu⟩ hd hx ho hword
    exact ⟨pageProgram_refused hall hd hx ho hword, hcontrol [0x0F, 0x1E, 0xC3, 0xA5] (by decide) (by decide) (by decide),
      hcontrol [0x0F, 0xE1, 0xC3, 0xA5] (by decide) (by decide) (by decide)⟩

/-! ### The end of a session (O43) -/

/-- R37: what the end of a session leaves, port aside. -/
theorem endSession_eq (s : State) : endSession s = s.sessionEnded := by
  rw [endSession, State.sessionEnded]
  split
  · have hmap : s.map.entries.map MapEntry.abandoned = s.map.entries.map (fun (e : MapEntry) =>
        if e.phase = .stable ∨ e.phase = .opening then e
        else { bank := e.bank, phase := .stable, fresh := 0, damaged := false, toOpen := 0 }) :=
      List.map_congr_left fun e _ => abandoned_eq e
    rw [hmap]
    rfl
  · rfl

theorem sessionEnded_setPort (p : Port) (q : HostPort) (s : State) :
    (s.setPort p q).sessionEnded = s.sessionEnded.setPort p q := by cases p <;> rfl

theorem port_sessionEnded (s : State) (p : Port) : s.sessionEnded.port p = s.port p := by cases p <;> rfl

/-- R37: an abandon for the owner gives its port the outcome ABANDONED_OWNER. -/
theorem abandonSession_owner (ho : s.session.owner = some p) :
    abandonSession .owner s = s.sessionEnded.setPort p ((s.port p).result .abandonedOwner 0xFF) := by
  rw [abandonSession, ho]
  show updatePort p _ (endSession s) = _
  rw [updatePort, endSession_eq, port_sessionEnded]

theorem abandonSession_idle (ho : s.session.owner = some p) :
    abandonSession .idle s = s.sessionEnded.setPort p ((s.port p).outcome .abandonedIdle 0xFF) := by
  rw [abandonSession, ho]
  show updatePort p _ (endSession s) = _
  rw [updatePort, endSession_eq, port_sessionEnded]

/-- Table 9.3: an outcome that neither refuses nor fails leaves the sticky bits. -/
theorem outcome_of_not_refuses {code : Code} (hc : code.refuses = false) (hf : code ≠ .opFailed) (q : HostPort)
    (seg : BitVec 8) : q.outcome code seg = { q with code := code, seg := seg } := by
  simp only [HostPort.outcome, hc, hf, decide_false, Bool.false_and, Bool.or_false]

/-- A result of a READY port is its outcome. -/
theorem result_of_ready {q : HostPort} (h : q.state = .ready) (code : Code) (seg : BitVec 8) :
    q.result code seg = q.outcome code seg := by
  have hst : (q.outcome code seg).state = .ready := h
  rw [HostPort.result, HostPort.toReady, hst]

/-- R32: an ABANDON by the owner in ACTIVE. -/
theorem sessionProgram_abandon (hst : s.session.state = .active) (ho : s.session.owner = some p)
    (h : commitWordOf a data = some .abandon) : sessionProgram p a data s = abandonSession .owner s := by
  rw [sessionProgram, if_pos (ownsActive_of_owner hst ho), ownerProgramRequest, if_pos h]

/-- R159: the latches of a port that a SOFT RESET clears. -/
def HostPort.latchesClear (q : HostPort) : HostPort :=
  { q with wel := false, refused := false, progFail := false, eraseFail := false }

theorem takeSoftReset_owner (ho : s.session.owner = some p) :
    takeSoftReset p s = sessionSoftReset p (s.setPort p (s.port p).latchesClear) := by
  have howner : (updatePort p (fun q => { q with wel := false, refused := false, progFail := false, eraseFail := false })
      s).session.owner = some p := by rw [updatePort, setPort_session, ho]
  exact if_pos howner

/-- Settles O43. -/
theorem abandonEndsTheSession : Obligations.AbandonEndsTheSession := by
  unfold Obligations.AbandonEndsTheSession
  intro p s hst ho ended
  have hended (q : HostPort) : ended q = s.sessionEnded.setPort p q := rfl
  refine ⟨fun hr hw hu => ?_, fun ht => ?_, fun ht => ?_, fun hr hf => ?_, fun f hb hf => ?_⟩
  · have hexec : exec (.abandon p) s = exec (.pageProgram p 0x000FF0 [0x0F, 0xE1, 0xC3, 0xA5]) s := rfl
    rw [hexec, pageProgram_passes ⟨hr, hw, by decide, hu⟩ (by decide) (by decide),
      sessionProgram_abandon (by rwa [setPort_session]) (by rwa [setPort_session]) (by decide),
      abandonSession_owner (by rwa [setPort_session]), sessionEnded_setPort, setPort_setPort, port_setPort,
      result_waiting_done rfl (by decide), hended, ← hr]
  · have hexec : exec .idleTimerExpiry s = .next (abandonSession .idle s) := if_pos ⟨hst, ht⟩
    rw [hexec, abandonSession_idle ho, outcome_of_not_refuses rfl (by decide), hended]
  · exact if_neg fun h => ht h.2
  · have hexec : exec (.softReset p) s = .next (takeSoftReset p s) :=
      congrArg Host.Outcome.next (arrive_ready p .softReset s hr)
    have hreset : sessionSoftReset p (s.setPort p (s.port p).latchesClear) =
        abandonSession .owner (s.setPort p (s.port p).latchesClear) := by
      rw [sessionSoftReset, setPort_session, hst]
      exact if_pos (by rw [port_setPort]; exact hf)
    rw [hexec, takeSoftReset_owner ho, hreset, abandonSession_owner (by rwa [setPort_session]), sessionEnded_setPort,
      setPort_setPort, port_setPort, result_of_ready (by exact hr), outcome_of_not_refuses rfl (by decide), hended]
    rfl
  · have hexec : exec (.softReset p) s = .next (takeSoftReset p s) :=
      congrArg Host.Outcome.next (arrive_busy p .softReset s (.inl hb))
    have hreset : sessionSoftReset p (s.setPort p (s.port p).latchesClear) =
        (s.setPort p (s.port p).latchesClear).setSession
          { s.session with state := .ending, endReason := some .owner, timer := .stopped } := by
      rw [sessionSoftReset, setPort_session, hst]
      refine if_neg ?_
      rw [port_setPort]
      simp [HostPort.latchesClear, hf]
    rw [hexec, takeSoftReset_owner ho, hreset]
    cases p <;> rfl

/-! ### ACCEPT (O44) -/

/-- R101: the program of ACCEPT to the acceptance word carries ACCEPT. -/
theorem otherProgram_accept (p : Port) (s : State) :
    otherProgram p 0x000FF4 [0x11, 0x0A, 0xC3, 0x5A] s = decideAccept p s := by
  have hword : acceptanceWordOf 0x000FF4 [0x11, 0x0A, 0xC3, 0x5A] = some .accept := by decide
  rw [otherProgram, hword, if_pos rfl]

/-- Settles O44. -/
theorem acceptIsDecidedInOrder : Obligations.AcceptIsDecidedInOrder := by
  unfold Obligations.AcceptIsDecidedInOrder
  intro p s hr hw hu ho refused
  have hexec : exec (.accept p) s = exec (.pageProgram p 0x000FF4 [0x11, 0x0A, 0xC3, 0x5A]) s := rfl
  rw [hexec, pageProgram_passes ⟨hr, hw, by decide, hu⟩ (by decide) (by decide),
    sessionProgram_other (by rwa [setPort_session]), otherProgram_accept]
  have hrefused (code : Code) (hc : code.refuses = true) :
      giveResult p code 0xFF (s.setPort p ((s.port p).waiting (.program 0x000FF4 [0x11, 0x0A, 0xC3, 0x5A]))) =
        refused code := giveResult_waiting hr ho hc _ 0xFF
  simp only [decideAccept, setPort_log, setPort_image, hrefused .updatesLocked rfl, hrefused .notOnTrial rfl,
    hrefused .engineBusy rfl]
  cases p <;> rfl

end

end Sys2Proof.Machine
end

section
/-!
PROOF of O46, O48 and O49: the latch and status requests, busy and held ports, and the arbiter.
-/

namespace Sys2Proof.Machine

section
variable {p : Port} {s : State}

/-! ### Latch and status requests (O46) -/

/-- R146: what READY and the busy states do alike, an arriving request does. -/
theorem exec_answered {r : HostRequest} {t : State}
    (h : (s.port p).state = .ready ∨ (s.port p).state = .opBusy ∨ (s.port p).state = .commitBusy)
    (hready : takeReady p r s = t) (hbusy : takeBusy p r s = t) : exec (requestCommand p r) s = .next t := by
  rw [exec_requestCommand]
  rcases h with h | h
  · rw [arrive_ready p r s h, hready]
  · rw [arrive_busy p r s h, hbusy]

/-- R38, R73, R159: a SOFT RESET clears the latches, and reaches the session from its owner in ACTIVE alone. -/
theorem takeSoftReset_latches (h : s.session.owner ≠ some p ∨ s.session.state = .closing ∨ s.session.state = .ending) :
    takeSoftReset p s = s.setPort p (s.port p).latchesClear := by
  by_cases ho : s.session.owner = some p
  · have hst := h.resolve_left fun hne => hne ho
    rw [takeSoftReset_owner ho, sessionSoftReset, setPort_session]
    rcases hst with hst | hst <;> rw [hst]
  · refine if_neg ?_
    rw [updatePort, setPort_session]
    exact ho

/-- Settles O46. -/
theorem latchAndStatusRequests : Obligations.LatchAndStatusRequests := by
  unfold Obligations.LatchAndStatusRequests
  intro p clocks s
  refine ⟨fun hr => ⟨?_, ?_⟩, fun hst => ⟨fun ho => ?_, ?_, ?_, fun code _ => ?_⟩, fun sent _ => rfl⟩
  · exact congrArg Host.Outcome.next (arrive_ready p .writeEnable s hr)
  · exact congrArg Host.Outcome.next (arrive_ready p .writeDisable s hr)
  · exact exec_answered (r := .softReset) hst (takeSoftReset_latches ho) (takeSoftReset_latches ho)
  · exact exec_answered (r := .statusRead clocks) hst rfl rfl
  · exact exec_answered (r := .extendedStatusRead clocks) hst rfl rfl
  · exact exec_answered (r := .unknownCode code clocks) hst rfl rfl

/-! ### Busy and held ports (O48) -/

/-- R146, R148: the refusal of an erase or program clears WEL. -/
theorem refuseBusy_of_clears_wel (p : Port) {r : HostRequest} (hr : clearsWel r = true) (s : State) :
    refuseBusy p r s =
      s.setPort p { s.port p with wel := false, refused := true, code := .portBusy, seg := requestSeg r } := by
  have hrefuses : Code.portBusy.refuses = true := rfl
  simp only [refuseBusy, updatePort, outcome_of_refuses hrefuses, hr, Bool.not_true, Bool.and_false]

theorem exec_busy (h : (s.port p).state = .opBusy ∨ (s.port p).state = .commitBusy) (r : HostRequest) :
    exec (requestCommand p r) s = .next (takeBusy p r s) := by
  rw [exec_requestCommand, arrive_busy p r s h]

/-- R146: a busy port refuses an erase or program, whatever its address and its data. -/
theorem exec_busy_write (h : (s.port p).state = .opBusy ∨ (s.port p).state = .commitBusy) {r : HostRequest}
    (hr : clearsWel r = true) :
    exec (requestCommand p r) s =
      .next (s.setPort p { s.port p with wel := false, refused := true, code := .portBusy, seg := requestSeg r }) := by
  have hbusy : takeBusy p r s = refuseBusy p r s := by cases r <;> first | rfl | cases hr
  rw [exec_busy h, hbusy, refuseBusy_of_clears_wel p hr]

/-- R124: a port in HELD holds the last request that arrived. -/
theorem exec_held (h : (s.port p).state = .held) (r : HostRequest) :
    exec (requestCommand p r) s = .next (holdRequest p [] r s) := by
  rw [exec_requestCommand, arrive_held p r s h]

/-- Settles O48. -/
theorem busyAndHeldPortsTakeNoAction : Obligations.BusyAndHeldPortsTakeNoAction := by
  unfold Obligations.BusyAndHeldPortsTakeNoAction
  intro p s wireBytes
  refine ⟨fun a data clocks h => ?busy, fun h => ⟨fun r => exec_held h r, ?forgotten⟩, fun t h ht hend => ⟨fun r => ?ending, ?kept⟩⟩
  case busy =>
    intro refused
    have hseg := outcomeSeg_eq a
    rw [← hseg]
    exact ⟨(exec_busy h (.arrayRead a clocks)).trans (congrArg Host.Outcome.next (putOnes_refuseBusy p clocks rfl s)),
      exec_busy_write h (r := .pageProgram a data) rfl, exec_busy_write h (r := .sectorErase a) rfl,
      exec_busy_write h (r := .segmentErase a) rfl, exec_busy_write h (r := controlProgram .startCommit) rfl,
      exec_busy_write h (r := controlProgram .abandon) rfl, exec_busy_write h (r := controlProgram .accept) rfl,
      exec_busy_write h (r := controlProgram .revert) rfl,
      (exec_busy h .writeEnable).trans (congrArg Host.Outcome.next (refuseBusy_of_keeps_wel p rfl s)),
      (exec_busy h .writeDisable).trans (congrArg Host.Outcome.next (refuseBusy_of_keeps_wel p rfl s))⟩
  case forgotten =>
    show Host.Outcome.next (forgetHeld p s) = _
    rw [forgetHeld, h]
    rfl
  case ending =>
    rw [exec_requestCommand, arrive_ended p r s t h ht hend]
    rfl
  case kept =>
    show Host.Outcome.next (forgetHeld p s) = _
    rw [forgetHeld, h]
    rfl

/-! ### The arbiter (O49) -/

/-- R137, R140: with no READ pending and no erase SUSPENDED the arbiter leaves the Flash Port as it is. -/
theorem settle_of_quiet {f : FlashPort} (hp : f.readPending = false) (he : ∀ e, f.erase = some e → e.condition ≠ .suspended) :
    f.settle = f := by
  cases hf : f.erase with
  | none => exact settle_of_no_erase hf
  | some e =>
    rw [FlashPort.settle, hf]
    cases hc : e.condition with
    | running => simp [hc, hp]
    | suspending => simp only [hc]
    | suspended => exact absurd hc (he e hf)

/-- R137, R140: an erase that is RUNNING with its budget unused has a suspend issued exactly when a READ is pending. -/
theorem settle_of_running {f : FlashPort} {e : FlashErase} (hf : f.erase = some e) (hc : e.condition = .running)
    (h0 : e.suspends = 0) :
    f.settle = { f with erase := some { e with condition := if f.readPending = true then .suspending else .running } } := by
  have hbudget : e.suspends < Config.suspendBudget := by rw [h0]; decide
  rw [FlashPort.settle, hf]
  simp only [hc, hbudget, true_and]
  cases hp : f.readPending with
  | true => rfl
  | false =>
    rw [if_neg Bool.false_ne_true, if_neg Bool.false_ne_true, ← hc, ← hf]

/-- R130, R137, R140: placing into an empty slot. -/
theorem place_of_empty {f : FlashPort} {c : Client} {a : Access} (h : f.slot c = .empty) :
    (a.isRead = true →
      f.place c a =
        { f.setSlot c (.pending a) with
          erase :=
            f.erase.map (fun (e : FlashErase) =>
              if e.condition = .running ∧ e.suspends < 32 then { e with condition := .suspending } else e) }) ∧
    (a.isRead = false → (∀ (d : Client) (y : Access), f.slot d = .pending y → y.isRead = false) →
      (∀ e, f.erase = some e → e.condition ≠ .suspended) → f.place c a = f.setSlot c (.pending a)) := by
  rw [FlashPort.place, if_pos h]
  refine ⟨fun ha => ?_, fun ha hno he => ?_⟩
  · have hpending : (f.setSlot c (.pending a)).readPending = true := by
      cases a with
      | read x n => exact readPending_true _ c x n (slot_setSlot _ _ _)
      | _ => cases ha
    rw [FlashPort.settle_of_readPending hpending, setSlot_erase]
    rfl
  · refine settle_of_quiet (readPending_false _ fun d y hd => ?_) (by rwa [setSlot_erase])
    by_cases hdc : d = c
    · rw [hdc, slot_setSlot] at hd
      cases hd
      exact ha
    · rw [slot_setSlot_of_ne hdc] at hd
      exact hno d y hd

theorem admits_of_idle {f : FlashPort} (ht : f.transfer = none) (he : f.erase = none) (hr : f.resetting = false)
    (a : Access) : f.admits a = true := by
  simp [FlashPort.admits, FlashPort.idle, ht, he, hr]

theorem admits_of_suspended {f : FlashPort} {e : FlashErase} (ht : f.transfer = none) (he : f.erase = some e)
    (hc : e.condition = .suspended) (hr : f.resetting = false) (a : Access) : f.admits a = a.isRead := by
  simp [FlashPort.admits, FlashPort.idle, ht, he, hr, hc]

theorem grantNext_choice {c : Client} {a : Access} (h : s.flash.choice = some (c, a)) (ha : a.addr + a.length ≤ 0x2000000) :
    grantNext s = .next (s.setFlash (s.flash.grant c a)) := by
  rw [grantNext, h]
  exact if_pos (decide_eq_true ha)

theorem grant_of_transfer {f : FlashPort} {c : Client} {a : Access}
    (h : (∃ x n, a = .read x n) ∨ (∃ x data, a = .program x data)) :
    f.grant c a =
      { f.setSlot c (.granted a) with pointer := c, transfer := some { client := c, access := a, runTime := 0 } } := by
  rcases h with ⟨x, n, rfl⟩ | ⟨x, data, rfl⟩ <;> rfl

/-- The access that an erase of a kind is. -/
theorem grant_of_erase {f : FlashPort} {c : Client} {a : Access} {x : Nat} {kind : EraseKind}
    (h : a =
      match kind with
      | .sector => .sectorErase x
      | .block => .blockErase x) :
    f.grant c a =
      { f.setSlot c (.granted a) with
        pointer := c
        erase :=
          some
            { client := c, kind := kind, addr := x, runTime := 0, suspends := 0,
              condition := if (f.setSlot c (.granted a)).readPending = true then .suspending else .running } } := by
  let begun : FlashErase :=
    { client := c, kind := kind, addr := x, runTime := 0, suspends := 0, condition := .running }
  have hsettle := settle_of_running (f := { f.setSlot c (.granted a) with pointer := c, erase := some begun }) rfl rfl rfl
  subst h
  cases kind <;> exact hsettle

theorem isRead_exists {a : Access} (h : a.isRead = true) : ∃ x n, a = .read x n := by
  cases a with
  | read x n => exact ⟨x, n, rfl⟩
  | _ => cases h

/-- Settles O49. -/
theorem arbiterGrantsInRotation : Obligations.ArbiterGrantsInRotation := by
  unfold Obligations.ArbiterGrantsInRotation
  refine ⟨fun f c a h => place_of_empty h, fun s passed after c a hrot hslot hin ht hreset => ?grants,
    fun s e he hc hrun ht hreset => ?suspends⟩
  case grants =>
    intro granted issued
    refine ⟨fun he hpassed => ?_, fun e he hc ha hpassed => ?_⟩
    · have hchoice : s.flash.choice = some (c, a) :=
        choice_first _ passed after c a hrot hslot (admits_of_idle ht he hreset a) fun d hd x hx => absurd hx (hpassed d hd x)
      have hexec : exec .accessGrant s = .next (s.setFlash (s.flash.grant c a)) := grantNext_choice hchoice hin
      rw [hexec]
      refine ⟨fun ha => ?_, fun x kind ha => ?_⟩
      · rw [grant_of_transfer ha]
      · rw [grant_of_erase (kind := kind) (x := x) ha]
        rfl
    · have hadmits := admits_of_suspended ht he hc hreset
      have hchoice : s.flash.choice = some (c, a) :=
        choice_first _ passed after c a hrot hslot ((hadmits a).trans ha) fun d hd x hx =>
          (hadmits x).trans (hpassed d hd x hx)
      have hexec : exec .accessGrant s = .next (s.setFlash (s.flash.grant c a)) := grantNext_choice hchoice hin
      rw [hexec, grant_of_transfer (.inl (isRead_exists ha))]
  case suspends =>
    have hrunning : s.flash.eraseRunning = some e := by
      rw [FlashPort.eraseRunning, he]
      exact if_pos ⟨by simp [hc], hrun⟩
    have hexec : exec .eraseSuspended s =
        grantNext (s.setFlash (FlashPort.settle
          { s.flash with erase := some { e with condition := .suspended, suspends := e.suspends + 1 } })) := by
      show execEraseSuspended s = _
      rw [execEraseSuspended, hrunning]
      exact if_pos hc
    let suspendedFlash : FlashPort :=
      { s.flash with erase := some { e with condition := .suspended, suspends := e.suspends + 1 } }
    let resumedFlash : FlashPort :=
      { s.flash with erase := some { e with condition := .running, suspends := e.suspends + 1 } }
    have hsettle : suspendedFlash.settle = if s.flash.readPending = true then suspendedFlash else resumedFlash :=
      settle_of_suspended (f := suspendedFlash) (e := { e with condition := .suspended, suspends := e.suspends + 1 }) rfl rfl ht
    refine ⟨fun passed after c x n hrot hslot hin hpassed => ?_, fun hno => ?_⟩
    · rw [if_pos (readPending_true s.flash c x n hslot)] at hsettle
      have hadmits := admits_of_suspended (f := suspendedFlash) ht rfl rfl hreset
      have hchoice : suspendedFlash.choice = some (c, .read x n) :=
        choice_first suspendedFlash passed after c _ hrot hslot (hadmits _) fun d hd y hy => (hadmits y).trans (hpassed d hd y hy)
      have hgrant : suspendedFlash.grant c (.read x n) = _ := grant_of_transfer (.inl ⟨x, n, rfl⟩)
      rw [hexec, show FlashPort.settle _ = _ from hsettle, grantNext_choice (s := s.setFlash suspendedFlash) hchoice hin]
      exact congrArg (fun f => Host.Outcome.next (s.setFlash f)) (hgrant.trans (by cases c <;> rfl))
    · rw [if_neg (by rw [readPending_false s.flash hno]; exact Bool.false_ne_true)] at hsettle
      have hchoice : (s.setFlash resumedFlash).flash.choice = none :=
        choice_none resumedFlash fun c y _ => by simp [FlashPort.admits, FlashPort.idle, resumedFlash]
      rw [hexec, show FlashPort.settle _ = _ from hsettle, grantNext, hchoice]

end

end Sys2Proof.Machine
end

section
/-!
PROOF of O50 to O52: the operations of the session owner complete, fail or time out. What the completion of an operation
does is stated for any state with the owner's port OP_BUSY (`OwnerBusy`); the completion events and the timeout differ in that
state alone.
-/

namespace Sys2Proof.Machine

section
variable {p : Port} {s : State} {f : InFlight} {seg : Nat}

/-! ### What an owner in OP_BUSY is answered -/

/-- The session owner has a request in flight. -/
structure OwnerBusy (p : Port) (f : InFlight) (s : State) : Prop where
  owner : s.session.owner = some p
  busy : (s.port p).state = .opBusy
  inFlight : (s.port p).inFlight = some f

/-- R35: the timer of a session runs again. -/
def Session.timerResumed (x : Session) : Session :=
  { x with
    timer :=
      match x.timer with
      | .paused ms => .running ms
      | timer => timer }

/-- A port that is READY again with an outcome. -/
def HostPort.answered (q : HostPort) (code : Code) (seg : BitVec 8) : HostPort :=
  { q with state := .ready, inFlight := none, code := code, seg := seg }

theorem resumeTimer_owner {x : Session} (hst : x.state = .active) (ho : x.owner = some p) :
    x.resumeTimer p = x.timerResumed := by
  obtain ⟨lock, state, owner, openCount, openLogged, timer, endReason⟩ := x
  rw [Session.resumeTimer, if_pos ⟨hst, ho⟩]
  cases timer <;> rfl

theorem result_of_busy {q : HostPort} (h : q.state = .opBusy) (code : Code) (seg : BitVec 8) :
    q.result code seg = { q.outcome code seg with state := .ready, inFlight := none } := by
  have hst : (q.outcome code seg).state = .opBusy := h
  rw [HostPort.result, HostPort.toReady, hst]

/-- R153: an outcome that neither refuses nor fails. -/
theorem result_done {q : HostPort} (h : q.state = .opBusy) {code : Code} (hc : code.refuses = false) (hf : code ≠ .opFailed)
    (seg : BitVec 8) : q.result code seg = q.answered code seg := by
  rw [result_of_busy h, outcome_of_not_refuses hc hf]
  rfl

/-- R153: the failure of an erase sets ERASE_FAIL. -/
theorem result_erase_failed {q : HostPort} (h : q.state = .opBusy) (hf : q.inFlight = some f) (he : f.isProgram = false)
    (seg : BitVec 8) : q.result .opFailed seg = { q.answered .opFailed seg with eraseFail := true } := by
  rw [result_of_busy h]
  simp [HostPort.outcome, HostPort.answered, hf, he, Code.refuses]

/-- R153: the failure of a program sets PROG_FAIL. -/
theorem result_program_failed {q : HostPort} (h : q.state = .opBusy) (hf : q.inFlight = some f) (he : f.isProgram = true)
    (seg : BitVec 8) : q.result .opFailed seg = { q.answered .opFailed seg with progFail := true } := by
  rw [result_of_busy h]
  simp [HostPort.outcome, HostPort.answered, hf, he, Code.refuses]

theorem giveResult_owner (h : OwnerBusy p f s) (hst : s.session.state = .active) (code : Code) (seg : BitVec 8) :
    giveResult p code seg s = (s.setSession s.session.timerResumed).setPort p ((s.port p).result code seg) := by
  rw [giveResult_eq, resumeTimer_owner hst h.owner]
  rfl

theorem giveResult_success (h : OwnerBusy p f s) (hst : s.session.state = .active) (seg : BitVec 8) :
    giveResult p .success seg s = (s.setSession s.session.timerResumed).setPort p ((s.port p).answered .success seg) := by
  rw [giveResult_owner h hst, result_done h.busy rfl (by decide)]

theorem giveResult_erase_failed (h : OwnerBusy p f s) (hf : f.isProgram = false) (hst : s.session.state = .active)
    (seg : BitVec 8) :
    giveResult p .opFailed seg s =
      (s.setSession s.session.timerResumed).setPort p { (s.port p).answered .opFailed seg with eraseFail := true } := by
  rw [giveResult_owner h hst, result_erase_failed h.busy h.inFlight hf]

theorem giveResult_program_failed (h : OwnerBusy p f s) (hf : f.isProgram = true) (hst : s.session.state = .active)
    (seg : BitVec 8) :
    giveResult p .opFailed seg s =
      (s.setSession s.session.timerResumed).setPort p { (s.port p).answered .opFailed seg with progFail := true } := by
  rw [giveResult_owner h hst, result_program_failed h.busy h.inFlight hf]

/-- R39: the completion in ENDING, whatever the failure bits become. -/
theorem endingComplete_eq (h : OwnerBusy p f s) (isProgram ok : Bool) :
    endingComplete p isProgram ok s =
      s.sessionEnded.setPort p
        { (s.port p).answered .abandonedOwner 0xFF with
          progFail := (s.port p).progFail || (isProgram && !ok), eraseFail := (s.port p).eraseFail || (!isProgram && !ok) } := by
  rw [endingComplete, updatePort, abandonSession_owner (by rw [setPort_session]; exact h.owner), sessionEnded_setPort,
    setPort_setPort, port_setPort, result_done (by exact h.busy) rfl (by decide)]
  rfl

theorem endingComplete_ok (h : OwnerBusy p f s) (isProgram : Bool) :
    endingComplete p isProgram true s = s.sessionEnded.setPort p ((s.port p).answered .abandonedOwner 0xFF) := by
  rw [endingComplete_eq h]
  simp [HostPort.answered]

theorem endingComplete_erase_failed (h : OwnerBusy p f s) :
    endingComplete p false false s =
      s.sessionEnded.setPort p { (s.port p).answered .abandonedOwner 0xFF with eraseFail := true } := by
  rw [endingComplete_eq h]
  simp [HostPort.answered]

theorem endingComplete_program_failed (h : OwnerBusy p f s) :
    endingComplete p true false s =
      s.sessionEnded.setPort p { (s.port p).answered .abandonedOwner 0xFF with progFail := true } := by
  rw [endingComplete_eq h]
  simp [HostPort.answered]

/-! ### The erases of the owner (O51) -/

theorem port_setEntry (s : State) (seg : Nat) (e : MapEntry) (p : Port) : (s.setEntry seg e).port p = s.port p := by
  cases p <;> rfl

/-- A change of an entry leaves the owner waiting. -/
theorem OwnerBusy.setEntry (h : OwnerBusy p f s) (seg : Nat) (e : MapEntry) : OwnerBusy p f (s.setEntry seg e) :=
  ⟨h.owner, by rw [port_setEntry]; exact h.busy, by rw [port_setEntry]; exact h.inFlight⟩

theorem OwnerBusy.setOpenCount (h : OwnerBusy p f s) (n : Nat) :
    OwnerBusy p f (s.setSession { s.session with openCount := n }) :=
  ⟨h.owner, by cases p <;> exact h.busy, by cases p <;> exact h.inFlight⟩

theorem not_ending_of_active (hst : s.session.state = .active) : ¬s.session.state = .ending := fun h => by
  cases hst.symm.trans h

/-- R4, R26: an opening that succeeds in ACTIVE. -/
theorem openingDone_ok (h : OwnerBusy p f s) (hst : s.session.state = .active) :
    openingDone p seg true s =
      State.setPort
        (State.setSession
          (s.setEntry seg { s.entry seg with phase := .opened, fresh := (s.entry seg).toOpen, damaged := false, toOpen := 0 })
          s.session.timerResumed)
        p ((s.port p).answered .success (BitVec.ofNat 8 seg)) := by
  rw [openingDone, if_neg (not_ending_of_active hst), if_pos rfl, updateEntry, giveResult_success (h.setEntry _ _) hst,
    port_setEntry]
  rfl

/-- R26: an opening that fails in ACTIVE. -/
theorem openingDone_failed (h : OwnerBusy p f s) (hf : f.isProgram = false) (hst : s.session.state = .active) :
    openingDone p seg false s =
      State.setPort
        (State.setSession
          (s.setEntry seg { bank := (s.entry seg).bank, phase := .stable, fresh := 0, damaged := false, toOpen := 0 })
          { s.session.timerResumed with openCount := s.session.openCount - 1 })
        p { (s.port p).answered .opFailed (BitVec.ofNat 8 seg) with eraseFail := true } := by
  have hbusy := (h.setEntry seg (s.entry seg).toStable).setOpenCount (s.session.openCount - 1)
  rw [openingDone, if_neg (not_ending_of_active hst), if_neg Bool.false_ne_true]
  refine (giveResult_erase_failed hbusy hf hst _).trans ?_
  cases p <;> rfl

/-- R39: an opening completes in ENDING. -/
theorem openingDone_ending (hst : s.session.state = .ending) (ok : Bool) :
    openingDone p seg ok s =
      endingComplete p false ok
        (s.setEntry seg { bank := (s.entry seg).bank, phase := .stable, fresh := 0, damaged := false, toOpen := 0 }) :=
  if_pos hst

/-- R27: the erase of a fresh sector succeeds in ACTIVE. -/
theorem sectorEraseDone_ok (h : OwnerBusy p f s) (hst : s.session.state = .active) :
    sectorEraseDone p seg true s =
      (s.setSession s.session.timerResumed).setPort p ((s.port p).answered .success (BitVec.ofNat 8 seg)) := by
  rw [sectorEraseDone, if_neg (not_ending_of_active hst), if_pos rfl, giveResult_success h hst]
  rfl

/-- R5, R27, R28: what the failure of an erase of an OPEN shadow leaves in ACTIVE. -/
theorem openErase_failed (h : OwnerBusy p f s) (hf : f.isProgram = false) (hst : s.session.state = .active)
    (hopen : (s.entry seg).phase = .opened) :
    giveResult p .opFailed (segByte seg) (updateEntry seg MapEntry.markDamaged s) =
      State.setPort (State.setEntry (s.setSession s.session.timerResumed) seg { s.entry seg with damaged := true }) p
        { (s.port p).answered .opFailed (BitVec.ofNat 8 seg) with eraseFail := true } := by
  rw [updateEntry, MapEntry.markDamaged, if_pos hopen, giveResult_erase_failed (h.setEntry _ _) hf hst, port_setEntry]
  rfl

theorem sectorEraseDone_failed (h : OwnerBusy p f s) (hf : f.isProgram = false) (hst : s.session.state = .active)
    (hopen : (s.entry seg).phase = .opened) :
    sectorEraseDone p seg false s =
      State.setPort (State.setEntry (s.setSession s.session.timerResumed) seg { s.entry seg with damaged := true }) p
        { (s.port p).answered .opFailed (BitVec.ofNat 8 seg) with eraseFail := true } := by
  rw [sectorEraseDone, if_neg (not_ending_of_active hst), if_neg Bool.false_ne_true, openErase_failed h hf hst hopen]

theorem blockEraseDone_ok (h : OwnerBusy p f s) (hst : s.session.state = .active) (hopen : (s.entry seg).phase = .opened) :
    blockEraseDone p seg true s =
      State.setPort
        (State.setSession (s.setEntry seg { s.entry seg with fresh := 0xFFFF, damaged := false }) s.session.timerResumed)
        p ((s.port p).answered .success (BitVec.ofNat 8 seg)) := by
  rw [blockEraseDone, if_neg (not_ending_of_active hst), if_pos rfl, updateEntry, MapEntry.fullErase, if_pos hopen,
    giveResult_success (h.setEntry _ _) hst, port_setEntry]
  rfl

theorem blockEraseDone_failed (h : OwnerBusy p f s) (hf : f.isProgram = false) (hst : s.session.state = .active)
    (hopen : (s.entry seg).phase = .opened) :
    blockEraseDone p seg false s =
      State.setPort (State.setEntry (s.setSession s.session.timerResumed) seg { s.entry seg with damaged := true }) p
        { (s.port p).answered .opFailed (BitVec.ofNat 8 seg) with eraseFail := true } := by
  rw [blockEraseDone, if_neg (not_ending_of_active hst), if_neg Bool.false_ne_true, openErase_failed h hf hst hopen]

/-- R39: an erase of an OPEN shadow completes in ENDING. -/
theorem openEraseDone_ending (hst : s.session.state = .ending) (ok : Bool) :
    sectorEraseDone p seg ok s = endingComplete p false ok s ∧ blockEraseDone p seg ok s = endingComplete p false ok s :=
  ⟨if_pos hst, if_pos hst⟩

theorem ownerEraseRunning_eq {e : FlashErase} (he : s.flash.erase = some e) (hc : e.client = portClient p)
    (hn : e.condition ≠ .suspended) (hrun : e.runTime < e.kind.limit) : ownerEraseRunning s = some (p, e) := by
  have hrunning : s.flash.eraseRunning = some e := by
    rw [FlashPort.eraseRunning, he]
    exact if_pos ⟨hn, hrun⟩
  rw [ownerEraseRunning, hrunning]
  dsimp only
  rw [hc]
  cases p <;> rfl

theorem OwnerBusy.finishErase (h : OwnerBusy p f s) (e : FlashErase) (left : Remains) :
    OwnerBusy p f (finishErase e left s) :=
  ⟨h.owner, by cases p <;> exact h.busy, by cases p <;> exact h.inFlight⟩

theorem finishErase_eq {e : FlashErase} {c : Client} (hc : e.client = c) (left : Remains) (s : State) :
    finishErase e left s =
      { s with
        mem := memErase s.mem e.addr e.kind.length left
        flash := { s.flash.setSlot c .empty with erase := none } } := by
  rw [finishErase, FlashPort.endErase, hc]

/-- Settles O51. -/
theorem ownerErasesComplete : Obligations.OwnerErasesComplete := by
  unfold Obligations.OwnerErasesComplete
  intro s p e f left ho hb hf hprog he hc hn hrun seg ended
  have hrunning := ownerEraseRunning_eq he hc hn hrun
  have hbusy (l : Remains) : OwnerBusy p f (finishErase e l s) := OwnerBusy.finishErase ⟨ho, hb, hf⟩ e l
  have hended (l : Remains) : finishErase e l s = ended e.kind.length l := finishErase_eq hc l s
  have hport (l : Remains) : (finishErase e l s).port p = s.port p := by cases p <;> rfl
  have hopening (r : FlashReport) (hk : e.kind = .block) (hph : (s.entry seg).phase = .opening) :
      exec (.openingEraseComplete r) s = .next (openingDone p seg (reportOk r) (finishErase e (reportLeft r) s)) := by
    show execOpeningEraseComplete r s = _
    rw [execOpeningEraseComplete, hrunning]
    exact if_pos ⟨hk, hph⟩
  have hsector (r : FlashReport) (hk : e.kind = .sector) :
      exec (.shadowSectorEraseComplete r) s =
        .next (sectorEraseDone p seg (reportOk r) (finishErase e (reportLeft r) s)) := by
    show execShadowSectorEraseComplete r s = _
    rw [execShadowSectorEraseComplete, hrunning]
    exact if_pos hk
  have hblock (r : FlashReport) (hk : e.kind = .block) (hph : (s.entry seg).phase = .opened) :
      exec (.shadowBlockEraseComplete r) s =
        .next (blockEraseDone p seg (reportOk r) (finishErase e (reportLeft r) s)) := by
    show execShadowBlockEraseComplete r s = _
    rw [execShadowBlockEraseComplete, hrunning]
    exact if_pos ⟨hk, fun h => by cases hph.symm.trans h⟩
  refine ⟨fun hst => ?active, fun hst => ?ending⟩
  case active =>
    intro resumed answered done failed
    refine ⟨fun hk hph => ⟨?_, ?_⟩, fun hph => ⟨fun hk => ⟨?_, ?_⟩, fun hk => ⟨?_, ?_⟩⟩⟩
    · rw [hopening _ hk hph, reportOk, reportLeft, openingDone_ok (hbusy _) hst, hport, hended, hk]
      rfl
    · rw [hopening _ hk hph, reportOk, reportLeft, openingDone_failed (hbusy _) hprog hst, hport, hended, hk]
      rfl
    · rw [hsector _ hk, reportOk, reportLeft, sectorEraseDone_ok (hbusy _) hst, hport, hended, hk]
      rfl
    · rw [hsector _ hk, reportOk, reportLeft, sectorEraseDone_failed (hbusy _) hprog hst hph, hport, hended, hk]
      rfl
    · rw [hblock _ hk hph, reportOk, reportLeft, blockEraseDone_ok (hbusy _) hst hph, hport, hended, hk]
      rfl
    · rw [hblock _ hk hph, reportOk, reportLeft, blockEraseDone_failed (hbusy _) hprog hst hph, hport, hended, hk]
      rfl
  case ending =>
    intro gone done failed stable
    have hend (l : Remains) : (finishErase e l s).session.state = .ending := hst
    have hstable (l : Remains) (x : MapEntry) : ((finishErase e l s).setEntry seg x).port p = s.port p :=
      (port_setEntry _ _ _ _).trans (hport l)
    refine ⟨fun hk hph => ⟨?_, ?_⟩, fun hph => ⟨fun hk => ⟨?_, ?_⟩, fun hk => ⟨?_, ?_⟩⟩⟩
    · rw [hopening _ hk hph, reportOk, reportLeft, openingDone_ending (hend _), endingComplete_ok ((hbusy _).setEntry _ _), hstable,
        hended, hk]
      rfl
    · rw [hopening _ hk hph, reportOk, reportLeft, openingDone_ending (hend _), endingComplete_erase_failed ((hbusy _).setEntry _ _),
        hstable, hended, hk]
      rfl
    · rw [hsector _ hk, reportOk, reportLeft, (openEraseDone_ending (hend _) _).1, endingComplete_ok (hbusy _), hport, hended, hk]
      rfl
    · rw [hsector _ hk, reportOk, reportLeft, (openEraseDone_ending (hend _) _).1, endingComplete_erase_failed (hbusy _), hport,
        hended, hk]
      rfl
    · rw [hblock _ hk hph, reportOk, reportLeft, (openEraseDone_ending (hend _) _).2, endingComplete_ok (hbusy _), hport, hended, hk]
      rfl
    · rw [hblock _ hk hph, reportOk, reportLeft, (openEraseDone_ending (hend _) _).2, endingComplete_erase_failed (hbusy _), hport,
        hended, hk]
      rfl

/-! ### The program of the owner, and START-COMMIT (O52) -/

/-- R45, R59: the header range of a reader is started on an idle slot. -/
theorem startHeader_eq (client : CheckClient) (hs : s.flash.slotWork = .empty) (he : s.flash.erase = none) :
    startHeader client s =
      { s with
        check := { running := true, client := some client, kind := some .header, length := 2056, count := 0, crc := 0xFFFFFFFF }
        reader := some { client := client, work := .header HeaderCapture.empty }
        flash :=
          { s.flash with slotWork := .pending (.read (translate (readerView client) s.map.entries 0 0) 256) } } := by
  rw [startHeader, placeChunk]
  show place .work _ _ = _
  rw [place_of_idle _ (by exact hs) (by exact he)]
  rfl

theorem abandonSession_verdict {v : Code × BitVec 8} (ho : s.session.owner = some p) (hv : s.commit.verdict = some v) :
    abandonSession .verdict s = s.sessionEnded.setPort p ((s.port p).result v.1 v.2) := by
  rw [abandonSession, ho]
  dsimp only
  rw [hv]
  dsimp only
  rw [updatePort, endSession_eq, port_sessionEnded]

/-- R57: a commit that ends with a failure verdict gives it to the owner port, which waits in COMMIT_BUSY. -/
theorem failCommit_eq {code : Code} (hc : code.refuses = true) (ho : s.session.owner = some p)
    (hb : (s.port p).state = .commitBusy) (seg : BitVec 8) :
    failCommit code seg s =
      State.setPort (State.sessionEnded { s with reader := none, commit := CommitRecord.reset }) p
        { (s.port p).answered code seg with refused := true } := by
  have hport (q : CommitRecord) : (s.setCommit q).port p = s.port p := by cases p <;> rfl
  have hresult : (s.port p).result code seg = { (s.port p).answered code seg with refused := true } := by
    have hst : ((s.port p).outcome code seg).state = .commitBusy := hb
    rw [HostPort.result, HostPort.toReady, hst, outcome_of_refuses hc]
    rfl
  rw [failCommit, abandonSession_verdict (v := (code, seg)) (by exact ho) rfl, hport, hresult]
  cases p <;> rfl

/-- R58: the lowest damaged segment. -/
theorem lowestDamaged_some : ∀ (es : List MapEntry) (k i : Nat), i < es.length → (entryOf es i).damaged = true →
    (∀ j < i, (entryOf es j).damaged = false) → lowestDamaged k es = some (k + i)
  | [], k, i, hi, _, _ => absurd hi (Nat.not_lt_zero i)
  | e :: es, k, 0, _, hd, _ => if_pos hd
  | e :: es, k, i + 1, hi, hd, hno => by
    have he : e.damaged = false := hno 0 (Nat.succ_pos i)
    have ih := lowestDamaged_some es (k + 1) i (Nat.lt_of_succ_lt_succ hi) hd fun j hj => hno (j + 1) (Nat.succ_lt_succ hj)
    rw [lowestDamaged, he, if_neg Bool.false_ne_true, ih, Nat.add_assoc, Nat.add_comm 1 i]

theorem programInFlight_eq {f : FlashPort} {c : Client} {x run : Nat} {data : List Byte}
    (ht : f.transfer = some { client := c, access := .program x data, runTime := run }) (hrun : run < 8) :
    f.programInFlight = some (c, x, data) := by
  rw [FlashPort.programInFlight, ht]
  exact if_pos hrun

theorem exec_ownerProgramComplete {x run : Nat} {data : List Byte} (r : FlashReport)
    (ht : s.flash.transfer = some { client := portClient p, access := .program x data, runTime := run }) (hrun : run < 8) :
    exec (.ownerProgramComplete r) s =
      .next (ownerProgramDone p (reportOk r) (finishProgram (portClient p) x data (reportLeft r) s)) := by
  show execOwnerProgramComplete r s = _
  rw [execOwnerProgramComplete, programInFlight_eq ht hrun]
  cases p <;> rfl

section
variable {a : LogicalAddr} {data : List Byte}

/-- R30: a program of ordinary data succeeds in ACTIVE. -/
theorem ownerProgramDone_ok (h : OwnerBusy p (.program a data) s) (hst : s.session.state = .active)
    (hword : commitWordOf a data ≠ some .startCommit) :
    ownerProgramDone p true s =
      (s.setSession s.session.timerResumed).setPort p ((s.port p).answered .success (BitVec.ofNat 8 (segOf a))) := by
  rw [ownerProgramDone, h.inFlight]
  dsimp only
  rw [if_neg (not_ending_of_active hst), if_pos rfl, if_neg hword, giveResult_success h hst, outcomeSeg_eq]

/-- R30: a program fails in ACTIVE. -/
theorem ownerProgramDone_failed (h : OwnerBusy p (.program a data) s) (hst : s.session.state = .active)
    (hopen : (s.entry (segOf a)).phase = .opened) :
    ownerProgramDone p false s =
      State.setPort
        (State.setEntry (s.setSession s.session.timerResumed) (segOf a) { s.entry (segOf a) with damaged := true }) p
        { (s.port p).answered .opFailed (BitVec.ofNat 8 (segOf a)) with progFail := true } := by
  rw [ownerProgramDone, h.inFlight]
  dsimp only
  rw [if_neg (not_ending_of_active hst), if_neg Bool.false_ne_true, updateEntry, MapEntry.markDamaged, if_pos hopen,
    giveResult_program_failed (h.setEntry _ _) rfl hst, port_setEntry, outcomeSeg_eq]
  rfl

theorem ownerProgramDone_ending (h : OwnerBusy p (.program a data) s) (hst : s.session.state = .ending) (ok : Bool) :
    ownerProgramDone p ok s = endingComplete p true ok s := by
  rw [ownerProgramDone, h.inFlight]
  exact if_pos hst

/-- R33: a START-COMMIT that succeeds in ACTIVE starts the Commit Engine. -/
theorem ownerProgramDone_startCommit (h : OwnerBusy p (.program a data) s) (hst : s.session.state = .active)
    (hword : commitWordOf a data = some .startCommit) : ownerProgramDone p true s = startCommitEngine p s := by
  rw [ownerProgramDone, h.inFlight]
  dsimp only
  rw [if_neg (not_ending_of_active hst), if_pos rfl, if_pos hword]

end

/-- R56, R154: the session is CLOSING, its owner COMMIT_BUSY, and the Commit Engine in HEADER. -/
def State.commitBegun (s : State) (p : Port) : State :=
  State.setPort
    { s with
      session := { s.session with state := .closing, timer := .stopped }
      commit := { CommitRecord.reset with stage := .header } }
    p { s.port p with state := .commitBusy, inFlight := none, code := .success, seg := 0 }

theorem commitBegun_eq (hb : (s.port p).state = .opBusy) :
    ((updatePort p
          (fun q =>
            { q with
              state := if q.state = .opBusy then .commitBusy else q.state
              inFlight := none
              code := .success
              seg := 0 })
          s).setSession { s.session with state := .closing, timer := .stopped }).setCommit
      { CommitRecord.reset with stage := .header } = s.commitBegun p := by
  rw [updatePort, if_pos hb]
  cases p <;> rfl

/-- R58: a commit with a damaged entry ends at once. -/
theorem startCommitEngine_damaged (hb : (s.port p).state = .opBusy) (h : lowestDamaged 0 s.map.entries = some seg) :
    startCommitEngine p s = failCommit .shadowDamaged (segByte seg) (s.commitBegun p) := by
  have hmap : (s.commitBegun p).map = s.map := by cases p <;> rfl
  simp only [startCommitEngine, commitBegun_eq hb, hmap, h]

/-- R59: a commit with no damaged entry reads the candidate header. -/
theorem startCommitEngine_undamaged (hb : (s.port p).state = .opBusy) (h : lowestDamaged 0 s.map.entries = none) :
    startCommitEngine p s = startHeader .commitEngine (s.commitBegun p) := by
  have hmap : (s.commitBegun p).map = s.map := by cases p <;> rfl
  simp only [startCommitEngine, commitBegun_eq hb, hmap, h]

/-- Settles O52. -/
theorem ownerProgramCompletes : Obligations.OwnerProgramCompletes := by
  unfold Obligations.OwnerProgramCompletes
  intro s p a data x run left ho hb hf he ht hrun ended
  have hexec (r : FlashReport) : exec (.ownerProgramComplete r) s =
      .next (ownerProgramDone p (reportOk r) (ended (reportLeft r))) := exec_ownerProgramComplete r ht hrun
  have hport (l : Remains) : (ended l).port p = s.port p := by cases p <;> rfl
  have hbusy (l : Remains) : OwnerBusy p (.program a data) (ended l) := ⟨ho, by rw [hport]; exact hb, by rw [hport]; exact hf⟩
  refine ⟨fun hst hopen => ?active, fun hst => ?ending⟩
  case active =>
    intro resumed answered
    refine ⟨fun hword => ?_, ?_, fun hword hno hslot => ?_, fun seg hword hseg hd hno => ?_⟩
    · rw [hexec, reportOk, reportLeft, ownerProgramDone_ok (hbusy _) hst hword, hport]
      rfl
    · rw [hexec, reportOk, reportLeft, ownerProgramDone_failed (hbusy _) hst hopen, hport]
      rfl
    · have hlowest : lowestDamaged 0 (ended []).map.entries = none := lowestDamaged_none _ 0 hno
      have hwork : ((ended []).commitBegun p).flash.slotWork = .empty := by cases p <;> exact hslot
      have herase : ((ended []).commitBegun p).flash.erase = none := by cases p <;> exact he
      rw [hexec, reportOk, reportLeft, ownerProgramDone_startCommit (hbusy _) hst hword,
        startCommitEngine_undamaged (hbusy _).busy hlowest, startHeader_eq _ hwork herase]
      cases p <;> rfl
    · have hlowest : lowestDamaged 0 (ended []).map.entries = some seg := by
        rw [lowestDamaged_some _ 0 seg hseg hd hno, Nat.zero_add]
      have hbegun : (((ended []).commitBegun p).port p) = _ := port_setPort ..
      rw [hexec, reportOk, reportLeft, ownerProgramDone_startCommit (hbusy _) hst hword,
        startCommitEngine_damaged (hbusy _).busy hlowest, failCommit_eq (p := p) rfl (by cases p <;> exact ho) (by rw [hbegun]), hbegun]
      cases p <;> rfl
  case ending =>
    intro gone
    refine ⟨?_, ?_⟩
    · rw [hexec, reportOk, reportLeft, ownerProgramDone_ending (hbusy _) hst, endingComplete_ok (hbusy _), hport]
      rfl
    · rw [hexec, reportOk, reportLeft, ownerProgramDone_ending (hbusy _) hst, endingComplete_program_failed (hbusy _), hport]
      rfl

/-! ### The operations of the other clients -/

theorem exec_copyProgramComplete {x run : Nat} {data : List Byte} (r : FlashReport)
    (ht : s.flash.transfer = some { client := .work, access := .program x data, runTime := run }) (hrun : run < 8)
    (hst : s.commit.stage = .fill) :
    exec (.copyProgramComplete r) s =
      .next (copyProgramDone (reportOk r) (finishProgram .work x data (reportLeft r) s)) := by
  show execCopyProgramComplete r s = _
  rw [execCopyProgramComplete, programInFlight_eq ht hrun]
  exact if_pos ⟨rfl, hst⟩

section
variable {x run : Nat} {data : List Byte} {w : Append} {b : RecordBody} {rest : List RecordBody} {step : AreaStep}

theorem logProgramInFlight_eq
    (ht : s.flash.transfer = some { client := .log, access := .program x data, runTime := run }) (hrun : run < 8) :
    logProgramInFlight s = some (x, data) := by
  rw [logProgramInFlight, programInFlight_eq ht hrun]

theorem exec_recordProgramComplete (r : FlashReport)
    (ht : s.flash.transfer = some { client := .log, access := .program x data, runTime := run }) (hrun : run < 8)
    (hat : s.log.atRecord = true) :
    exec (.recordProgramComplete r) s = .next (recordDone (reportOk r) (finishProgram .log x data (reportLeft r) s)) := by
  show execRecordProgramComplete r s = _
  rw [execRecordProgramComplete, logProgramInFlight_eq ht hrun]
  exact if_pos hat

theorem exec_areaHeaderProgramComplete (r : FlashReport)
    (ht : s.flash.transfer = some { client := .log, access := .program x data, runTime := run }) (hrun : run < 8)
    (hat : s.log.atAreaStep .header = true) :
    exec (.areaHeaderProgramComplete r) s =
      .next (areaStepDone .header (reportOk r) (finishProgram .log x data (reportLeft r) s)) := by
  show execAreaHeaderProgramComplete r s = _
  rw [execAreaHeaderProgramComplete, logProgramInFlight_eq ht hrun]
  exact if_pos hat

theorem exec_baseProgramComplete (r : FlashReport)
    (ht : s.flash.transfer = some { client := .log, access := .program x data, runTime := run }) (hrun : run < 8)
    (hat : s.log.atAreaStep .base = true) :
    exec (.baseProgramComplete r) s =
      .next (areaStepDone .base (reportOk r) (finishProgram .log x data (reportLeft r) s)) := by
  show execBaseProgramComplete r s = _
  rw [execBaseProgramComplete, logProgramInFlight_eq ht hrun]
  exact if_pos hat

theorem exec_mapAreaEraseComplete {e : FlashErase} (r : FlashReport) (he : s.flash.erase = some e) (hc : e.client = .log)
    (hn : e.condition ≠ .suspended) (hrun : e.runTime < e.kind.limit) (hat : s.log.atAreaStep .erase = true) :
    exec (.mapAreaEraseComplete r) s =
      .next (areaStepDone .erase (reportOk r) (finishErase e (reportLeft r) s)) := by
  have hrunning : s.flash.eraseRunning = some e := by
    rw [FlashPort.eraseRunning, he]
    exact if_pos ⟨hn, hrun⟩
  show execMapAreaEraseComplete r s = _
  rw [execMapAreaEraseComplete, hrunning]
  exact if_pos ⟨hc, hat⟩

/-- The Log Unit waits for the program of a record in WRITE and in RETRY_WRITE. -/
theorem atRecord_of_write {l : LogUnit} (ha : l.append = some w) (hq : l.queue = b :: rest)
    (hw : w.stage = .write ∨ w.stage = .retryWrite) : l.atRecord = true := by
  rcases hw with hw | hw <;> simp [LogUnit.atRecord, ha, hq, hw]

theorem atRecord_of_compacting {l : LogUnit} (ha : l.append = some w) (hw : w.stage = .compacting step) :
    l.atRecord = false := by
  simp [LogUnit.atRecord, ha, hw]

theorem atRecord_of_none {l : LogUnit} (ha : l.append = none) : l.atRecord = false := by
  simp [LogUnit.atRecord, ha]

theorem atAreaStep_of_compacting {l : LogUnit} (ha : l.append = some w) (hq : l.queue = b :: rest)
    (hw : w.stage = .compacting step) (step' : AreaStep) : l.atAreaStep step' = decide (step = step') := by
  simp [LogUnit.atAreaStep, ha, hq, hw]

theorem atAreaStep_of_init {l : LogUnit} (ha : l.append = none) (hi : l.initStep = some step) (step' : AreaStep) :
    l.atAreaStep step' = decide (step = step') := by
  simp [LogUnit.atAreaStep, ha, hi]

/-- A program of the Log Unit that is no record's ends the step of the map area it is. -/
theorem logProgramDone_of_area (ok : Bool) (hr : s.log.atRecord = false)
    (hat : ∀ step', s.log.atAreaStep step' = decide (step = step')) (hstep : step ≠ .erase) :
    logProgramDone ok s = areaStepDone step ok s := by
  rw [logProgramDone, if_neg (by rw [hr]; exact Bool.false_ne_true)]
  simp only [hat]
  cases step with
  | erase => exact absurd rfl hstep
  | header => rfl
  | base => rfl

theorem logProgramDone_of_record (ok : Bool) (h : s.log.atRecord = true) : logProgramDone ok s = recordDone ok s := if_pos h

end

/-! ### Timeouts (O50) -/

theorem exec_timeout_program {c : Client} {x run : Nat} {data : List Byte} (left : Remains)
    (ht : s.flash.transfer = some { client := c, access := .program x data, runTime := run }) (hrun : 8 ≤ run) :
    exec (.operationTimeout left) s = .next (programTimedOut c (startFlashReset (finishProgram c x data left s))) := by
  show execOperationTimeout left s = _
  rw [execOperationTimeout, ht]
  exact if_pos hrun

theorem eraseLimit_eq (k : EraseKind) :
    k.limit =
      match k with
      | .sector => 1600
      | .block => 6000 := by cases k <;> rfl

theorem exec_timeout_erase {e : FlashErase} (left : Remains) (ht : s.flash.transfer = none) (he : s.flash.erase = some e)
    (hn : e.condition ≠ .suspended) (hrun : e.kind.limit ≤ e.runTime) :
    exec (.operationTimeout left) s = .next (eraseTimedOut e (startFlashReset (finishErase e left s))) := by
  show execOperationTimeout left s = _
  rw [execOperationTimeout, ht, he]
  exact if_pos ⟨hn, hrun⟩

theorem OwnerBusy.startFlashReset (h : OwnerBusy p f s) : OwnerBusy p f (startFlashReset s) :=
  ⟨h.owner, by cases p <;> exact h.busy, by cases p <;> exact h.inFlight⟩

/-- Below its limit an operation does not time out. -/
theorem timeout_below_limit (s : State) (left : Remains) :
    (∀ x, s.flash.transfer = some x → x.runTime < 8 → exec (.operationTimeout left) s = .next s) ∧
    (∀ e, s.flash.transfer = none → s.flash.erase = some e → e.runTime < e.kind.limit →
      exec (.operationTimeout left) s = .next s) := by
  refine ⟨fun x ht hrun => ?_, fun e ht he hrun => ?_⟩
  · show execOperationTimeout left s = _
    rw [execOperationTimeout, ht]
    dsimp only
    cases x.access with
    | program a data => exact if_neg (Nat.not_le.mpr hrun)
    | _ => rfl
  · show execOperationTimeout left s = _
    rw [execOperationTimeout, ht, he]
    exact if_neg fun h => Nat.not_le.mpr hrun h.2

/-- The timeout of a copy program, a record program and an area program is the failure of one that is within its limit. -/
theorem timeout_program_fails {client : Client} {x run : Nat} {data : List Byte} (left : Remains) (hrun : 8 ≤ run)
    (ht : s.flash.transfer = some { client := client, access := .program x data, runTime := run }) {running : State}
    (hrunning : running =
      { s with
        flash :=
          { s.flash with transfer := some { client := client, access := .program x data, runTime := 0 }, resetting := true }
        faults := { s.faults with flashTimeout := true } }) :
    (client = .work → s.commit.stage = .fill →
      exec (.operationTimeout left) s = exec (.copyProgramComplete (.failed left)) running) ∧
    (client = .log →
      (s.log.atRecord = true → exec (.operationTimeout left) s = exec (.recordProgramComplete (.failed left)) running) ∧
      (∀ step, s.log.atRecord = false → (∀ step', s.log.atAreaStep step' = decide (step = step')) →
        (step = .header → exec (.operationTimeout left) s = exec (.areaHeaderProgramComplete (.failed left)) running) ∧
        (step = .base → exec (.operationTimeout left) s = exec (.baseProgramComplete (.failed left)) running))) := by
  have hfinish : finishProgram client x data left running = startFlashReset (finishProgram client x data left s) := by
    rw [hrunning]
    cases client <;> rfl
  have hflight : running.flash.transfer = some { client := client, access := .program x data, runTime := 0 } := by
    rw [hrunning]
  have hlog : running.log = s.log := by rw [hrunning]
  rw [exec_timeout_program left ht hrun]
  refine ⟨fun hc hst => ?_, fun hc => ⟨fun hat => ?_, fun step hr hat => ⟨fun hstep => ?_, fun hstep => ?_⟩⟩⟩
  · subst hc
    rw [exec_copyProgramComplete _ hflight (by decide) (by rw [hrunning]; exact hst), reportLeft, hfinish]
    rfl
  · subst hc
    rw [exec_recordProgramComplete _ hflight (by decide) (by rw [hlog]; exact hat), reportLeft, hfinish]
    exact congrArg Host.Outcome.next (logProgramDone_of_record _ (by exact hat))
  · subst hc hstep
    rw [exec_areaHeaderProgramComplete _ hflight (by decide) (by rw [hlog, hat]; rfl), reportLeft, hfinish]
    exact congrArg Host.Outcome.next (logProgramDone_of_area _ (by exact hr) (by exact hat) (by decide))
  · subst hc hstep
    rw [exec_baseProgramComplete _ hflight (by decide) (by rw [hlog, hat]; rfl), reportLeft, hfinish]
    exact congrArg Host.Outcome.next (logProgramDone_of_area _ (by exact hr) (by exact hat) (by decide))

/-- Settles O50. -/
theorem timeoutFailsTheOperation : Obligations.TimeoutFailsTheOperation := by
  unfold Obligations.TimeoutFailsTheOperation
  refine ⟨fun s p left ho hb => ?owner, fun s left => ?below, fun s left => ?others, fun s => rfl⟩
  case owner =>
    intro resumed failed gone
    refine ⟨fun a data x run hf hrun ht hopen => ?_, fun f e hf hprog ht he hc hn hrun => ?_⟩
    · intro timedOut
      have hexec : exec (.operationTimeout left) s = .next (ownerProgramDone p false timedOut) := by
        rw [exec_timeout_program left ht hrun]
        cases p <;> rfl
      have hport : timedOut.port p = s.port p := by cases p <;> rfl
      have hbusy : OwnerBusy p (.program a data) timedOut := ⟨ho, by rw [hport]; exact hb, by rw [hport]; exact hf⟩
      rw [hexec]
      refine ⟨fun hst => ?_, fun hst => ?_⟩
      · rw [ownerProgramDone_failed hbusy hst hopen, hport]
        rfl
      · rw [ownerProgramDone_ending hbusy hst, endingComplete_program_failed hbusy, hport]
        rfl
    · intro seg timedOut lost refused
      have hexec : exec (.operationTimeout left) s = .next (ownerEraseDone p e false (timedOut e.kind.length)) := by
        rw [exec_timeout_erase left ht he hn (by rw [eraseLimit_eq]; exact hrun), eraseTimedOut, finishErase_eq hc, hc]
        cases p <;> rfl
      have hport (n : Nat) : (timedOut n).port p = s.port p := by cases p <;> rfl
      have hbusy (n : Nat) : OwnerBusy p f (timedOut n) := ⟨ho, by rw [hport]; exact hb, by rw [hport]; exact hf⟩
      rw [hexec]
      refine ⟨fun hk hph => ?_, fun hopen length hlength => ?_⟩
      · have hdone : ownerEraseDone p e false (timedOut e.kind.length) = openingDone p seg false (timedOut 0x10000) := by
          rw [ownerEraseDone, hk]
          exact if_pos hph
        rw [hdone]
        refine ⟨fun hst => ?_, fun hst => ?_⟩
        · rw [openingDone_failed (hbusy _) hprog hst, hport]
          rfl
        · have hend : (timedOut 0x10000).session.state = .ending := hst
          rw [openingDone_ending hend, endingComplete_erase_failed ((hbusy _).setEntry _ _), port_setEntry, hport]
          rfl
      · have hlen : e.kind.length = length := by
          rw [hlength]
          cases e.kind <;> rfl
        have hnot : ¬((timedOut length).entry seg).phase = .opening := fun h => by cases hopen.symm.trans h
        have hdone : ownerEraseDone p e false (timedOut e.kind.length) =
            match e.kind with
            | .sector => sectorEraseDone p seg false (timedOut length)
            | .block => blockEraseDone p seg false (timedOut length) := by
          rw [ownerEraseDone, hlen]
          cases e.kind with
          | sector => rfl
          | block => exact if_neg hnot
        rw [hdone]
        refine ⟨fun hst => ?_, fun hst => ?_⟩
        · cases e.kind with
          | sector =>
            dsimp only
            rw [sectorEraseDone_failed (hbusy _) hprog hst hopen, hport]
            rfl
          | block =>
            dsimp only
            rw [blockEraseDone_failed (hbusy _) hprog hst hopen, hport]
            rfl
        · have hend : (timedOut length).session.state = .ending := hst
          have hdone2 := openEraseDone_ending (p := p) (seg := seg) hend false
          cases e.kind with
          | sector =>
            dsimp only
            rw [hdone2.1, endingComplete_erase_failed (hbusy _), hport]
            rfl
          | block =>
            dsimp only
            rw [hdone2.2, endingComplete_erase_failed (hbusy _), hport]
            rfl
  case below =>
    refine ⟨(timeout_below_limit s left).1, fun e ht he hrun => (timeout_below_limit s left).2 e ht he ?_⟩
    rw [eraseLimit_eq]
    exact hrun
  case others =>
    intro timeout
    refine ⟨fun client x run data hrun ht => ?_, fun e ht he hc hn hrun hstep => ?_⟩
    · intro running
      obtain ⟨hcopy, hlog⟩ := timeout_program_fails left hrun ht (running := running) rfl
      refine ⟨hcopy, fun w b rest hc ha hq => ⟨fun hw => ?_, fun hw => ?_, fun hw => ?_⟩, fun hc ha => ⟨fun hi => ?_, fun hi => ?_⟩⟩
      · exact (hlog hc).1 (atRecord_of_write ha hq hw)
      · exact ((hlog hc).2 .header (atRecord_of_compacting ha hw) (atAreaStep_of_compacting ha hq hw)).1 rfl
      · exact ((hlog hc).2 .base (atRecord_of_compacting ha hw) (atAreaStep_of_compacting ha hq hw)).2 rfl
      · exact ((hlog hc).2 .header (atRecord_of_none ha) (atAreaStep_of_init ha hi)).1 rfl
      · exact ((hlog hc).2 .base (atRecord_of_none ha) (atAreaStep_of_init ha hi)).2 rfl
    · have hat : s.log.atAreaStep .erase = true := by
        rcases hstep with ⟨w, b, rest, ha, hq, hw⟩ | ⟨ha, hi⟩
        · rw [atAreaStep_of_compacting ha hq hw]
          rfl
        · rw [atAreaStep_of_init ha hi]
          rfl
      have htimed (x : State) : eraseTimedOut e x = areaStepDone .erase false x := by rw [eraseTimedOut, hc]
      rw [exec_timeout_erase left ht he hn (by rw [eraseLimit_eq]; exact hrun), htimed,
        exec_mapAreaEraseComplete _ (e := { e with runTime := 0 }) rfl (by exact hc) (by exact hn)
          (by show 0 < e.kind.limit; cases e.kind <;> decide) (by exact hat), finishErase_eq hc, finishErase_eq (by exact hc)]
      rfl

end

end Sys2Proof.Machine
end

section
/-!
PROOF of O53 to O55: ranges are read chunk by chunk, a range result decides the commit or the start-up check, and FILL copies
page by page.
-/

namespace Sys2Proof.Machine

section
variable {p : Port} {s : State} {seg : Nat}

/-! ### Chunks of a range (O53) -/

/-- R139: with no erase in progress it does not matter whether the client goes on before or after the look at the slots. -/
theorem finishReadThen_of_no_erase (nextFirst : Bool) (c : Client) (a n : Nat) {f : State → State} (he : s.flash.erase = none)
    (hf : (f (s.setFlash (s.flash.endTransfer c))).flash.erase = none) :
    finishReadThen nextFirst c a n f s = f (s.setFlash (s.flash.endTransfer c)) := by
  cases nextFirst with
  | false => rw [finishReadThen_false, finishRead_of_no_erase c a n he]
  | true => rw [finishReadThen_true, endRead_of_no_erase c a n he, lookAfterRead_of_no_erase hf]

/-- R50: the place where the range of a reader begins is kept by what it captures. -/
theorem rangeStart_captureChunk (count : Nat) (bytes : List Byte) (r : Reader) :
    rangeStart (captureChunk count bytes r).work = rangeStart r.work ∧
      (captureChunk count bytes r).client = r.client := by
  obtain ⟨client, work⟩ := r
  cases work <;> exact ⟨rfl, rfl⟩

/-- R50, R51: a chunk enters the Check Unit, and the next one is placed while the range is not complete. -/
theorem chunkTaken_eq {r : Reader} {bytes : List Byte} {start : Nat} (hr : rangeStart r.work = some (seg, start))
    (hs : s.flash.slotWork = .empty) (he : s.flash.erase = none) :
    chunkTaken r bytes s =
      { s with
        check := { bytes.foldl CheckUnit.take s.check with count := s.check.count + bytes.length }
        reader := some (captureChunk s.check.count bytes r)
        flash :=
          { s.flash with
            slotWork :=
              if s.check.count + bytes.length < s.check.length then
                .pending
                  (.read (translate (readerView r.client) s.map.entries seg (start + (s.check.count + bytes.length)))
                    (min 256 (s.check.length - (s.check.count + bytes.length))))
              else .empty } } := by
  obtain ⟨hcount, hlength⟩ := foldl_take_count bytes s.check
  have hcheck : { bytes.foldl CheckUnit.take s.check with count := s.check.count + bytes.length } =
      bytes.foldl CheckUnit.take s.check := by rw [← hcount]
  obtain ⟨hstart, hclient⟩ := rangeStart_captureChunk s.check.count bytes r
  rw [hcheck, chunkTaken, ← hcount, ← hlength]
  dsimp only [State.setCheck]
  by_cases h : (bytes.foldl CheckUnit.take s.check).count < (bytes.foldl CheckUnit.take s.check).length
  · refine (if_pos (by exact h)).trans ?_
    rw [if_pos h, placeChunk]
    dsimp only
    rw [hstart, hr]
    dsimp only
    rw [place_of_idle _ (by exact hs) (by exact he), hclient]
    rfl
  · refine (if_neg (by exact h)).trans ?_
    rw [if_neg h, ← hs]

/-- The range of a reader that is open. -/
theorem exec_checkChunkReadComplete {r : Reader} {start a n : Nat} (nextFirst : Bool) (hread : s.reader = some r)
    (hr : rangeStart r.work = some (seg, start)) (hrun : s.check.running = true) (hn : s.check.count < s.check.length)
    (hfl : s.flash.readInFlight .work = some (a, n)) (he : s.flash.erase = none) :
    exec (.checkChunkReadComplete nextFirst) s =
      .next (chunkTaken r (memReadBytes s.mem a n) (s.setFlash (s.flash.endTransfer .work))) := by
  have hopen : rangeOpen s = some r := by
    rw [rangeOpen, hread]
    obtain ⟨client, work⟩ := r
    cases work with
    | descriptor seg => cases hr
    | header cap => exact if_pos ⟨hrun, hn⟩
    | segment seg value => exact if_pos ⟨hrun, hn⟩
  show execCheckChunkReadComplete nextFirst s = _
  rw [execCheckChunkReadComplete, hopen, hfl]
  dsimp only
  rw [readFlash_of_no_erase a n he, finishReadThen_of_no_erase nextFirst .work a n he]
  rw [chunkTaken_eq hr rfl (by exact he)]
  exact he

/-- R49, R54: the range of a segment is started on an idle slot. -/
theorem startSegmentRange_eq {client : CheckClient} (length : Nat) (value : Word32) (hs : s.flash.slotWork = .empty)
    (he : s.flash.erase = none) :
    startSegmentRange client seg length value s =
      { s with
        check :=
          { running := true, client := some client, kind := some .segment, length := length, count := 0, crc := 0xFFFFFFFF }
        reader := some { client := client, work := .segment seg value }
        flash :=
          { s.flash with
            slotWork :=
              .pending (.read (translate (readerView client) s.map.entries seg (coveredStart seg)) (min 256 length)) } } := by
  rw [startSegmentRange, placeChunk]
  show place .work _ _ = _
  rw [place_of_idle _ (by exact hs) (by exact he)]
  rfl

/-- Settles O53. -/
theorem rangesAreReadChunkByChunk : Obligations.RangesAreReadChunkByChunk := by
  unfold Obligations.RangesAreReadChunkByChunk
  intro s seg a n hfl he
  refine ⟨fun nextFirst client value hread hrun hle hn => ?segment, fun nextFirst sm hread hsm => ?descriptor,
    fun nextFirst client cap hread hrun hle hn => ?header, fun cap word chunk rest h => captureWords_append rest chunk cap word h⟩
  case segment =>
    intro count
    rw [exec_checkChunkReadComplete nextFirst hread rfl hrun (by omega) hfl he, chunkTaken_eq rfl rfl (by exact he),
      memReadBytes_length, hread]
    cases client <;> rfl
  case header =>
    intro count
    rw [exec_checkChunkReadComplete nextFirst hread rfl hrun (by omega) hfl he, chunkTaken_eq rfl rfl (by exact he),
      memReadBytes_length]
    simp only [Nat.zero_add]
    cases client <;> rfl
  case descriptor =>
    intro length
    have hused : usedLength .commitEngine seg s = length := by
      rw [usedLength, hsm]
      rfl
    show execDescriptorReadComplete nextFirst s = _
    rw [execDescriptorReadComplete, hread, hfl]
    dsimp only
    rw [readFlash_of_no_erase a n he, hused, finishReadThen_of_no_erase nextFirst .work a n he]
    · rw [startSegmentRange_eq _ _ rfl (by exact he)]
      rfl
    · rw [startSegmentRange_eq _ _ rfl (by exact he)]
      exact he

/-! ### What follows a range (O54) -/

/-- R53: no segment from a given one on has a used length. -/
theorem firstUsed_eq_none (start : Nat) : ∀ (us : List Word32) (k : Nat), (∀ i, start ≤ k + i → us.getD i 0 = 0) →
    firstUsed start k us = none
  | [], _, _ => rfl
  | u :: us, k, h => by
    have hskip : ¬(start ≤ k ∧ u ≠ 0) := fun hu => hu.2 (h 0 hu.1)
    rw [firstUsed, if_neg hskip]
    exact firstUsed_eq_none start us (k + 1) fun i hi => h (i + 1) (by omega)

/-- R53: the first segment from a given one on that has a used length. -/
theorem firstUsed_eq_some (start : Nat) : ∀ (us : List Word32) (k i : Nat), start ≤ k + i → us.getD i 0 ≠ 0 →
    (∀ j < i, start ≤ k + j → us.getD j 0 = 0) → firstUsed start k us = some (k + i)
  | [], _, _, _, hu, _ => absurd rfl hu
  | u :: us, k, 0, hi, hu, _ => if_pos ⟨hi, hu⟩
  | u :: us, k, i + 1, hi, hu, hno => by
    have hskip : ¬(start ≤ k ∧ u ≠ 0) := fun h => h.2 (hno 0 (Nat.succ_pos i) h.1)
    rw [firstUsed, if_neg hskip, firstUsed_eq_some start us (k + 1) i (by omega) hu fun j hj hs =>
      hno (j + 1) (Nat.succ_lt_succ hj) (by omega)]
    exact congrArg some (by omega)

theorem placeDescriptor_eq (client : CheckClient) (seg : Nat) (hs : s.flash.slotWork = .empty) (he : s.flash.erase = none) :
    placeDescriptor client seg s =
      { s with
        reader := some { client := client, work := .descriptor seg }
        flash :=
          { s.flash with
            slotWork := .pending (.read (translate (readerView client) s.map.entries 0 (0x10 + 8 * seg)) 8) } } := by
  rw [placeDescriptor, place_of_idle _ (by exact hs) (by exact he)]
  rfl

/-- R51: a complete range hands its result to the client, with the Check Unit IDLE. -/
theorem exec_checkRangeResult {r : Reader} (hread : s.reader = some r) (hrun : s.check.running = true)
    (hn : s.check.count = s.check.length) :
    exec .checkRangeResult s = .next (rangeResult r (crcFinish s.check.crc) (s.setCheck CheckUnit.reset s.reader)) := by
  show execCheckRangeResult s = _
  rw [execCheckRangeResult, hread]
  exact if_pos ⟨hrun, hn⟩

/-- R122: the first check fails with a valid target. -/
theorem checkFailed_first (hp : s.seq.checkPass = .first) (ht : s.image.targetValid = true) :
    checkFailed s =
      { s with
        reader := none
        seq := { s.seq with checkResult := .failed, summary := none }
        image := { s.image with rollback := some (.sequencer, .startCheck) }
        log :=
          { s.log with queue := s.log.queue ++ [.rollback s.image.targetBitmap s.image.targetSerial .startCheck] } } :=
  if_pos ⟨hp, ht⟩

/-- R123: the second check fails, or one without a valid target. -/
theorem checkFailed_last (h : s.seq.checkPass ≠ .first ∨ s.image.targetValid = false) :
    checkFailed s =
      { s with
        reader := none
        seq := { s.seq with checkResult := .failed, summary := none, work := .ended }
        faults := { s.faults with noValidImage := true } } := by
  have hnot : ¬(s.seq.checkPass = .first ∧ s.image.targetValid = true) := fun hb => by
    rcases h with h | h
    · exact h hb.1
    · exact Bool.false_ne_true (h.symm.trans hb.2)
  exact if_neg hnot

/-- R66: the Commit Engine enters RECORD. -/
theorem enterRecord_eq {sm : HeaderSummary} (hsm : s.commit.summary = some sm) :
    enterRecord s =
      { s with
        reader := none
        commit :=
          { s.commit with
            stage := .record, cursor := none, newBitmap := some (mapBitmap s.map.entries ^^^ readySet s.map.entries) }
        log :=
          { s.log with
            queue :=
              s.log.queue ++
                [.commit (mapBitmap s.map.entries ^^^ readySet s.map.entries) sm.serial sm.headerCrc
                  s.seq.straps.trialLim] } } := by
  rw [enterRecord, hsm]
  rfl

theorem commitVerify_next {sm : HeaderSummary} {start next : Nat} (hsm : s.commit.summary = some sm)
    (hs : s.flash.slotWork = .empty) (he : s.flash.erase = none) (hge : start ≤ next) (hu : sm.used.getD next 0 ≠ 0)
    (hno : ∀ k < next, start ≤ k → sm.used.getD k 0 = 0) :
    commitVerify start s =
      { s with
        reader := some { client := .commitEngine, work := .descriptor next }
        commit := { s.commit with stage := .verify, cursor := some { seg := next, sector := 0 } }
        flash :=
          { s.flash with
            slotWork := .pending (.read (translate .candidate s.map.entries 0 (0x10 + 8 * next)) 8) } } := by
  have hfirst : firstUsed start 0 (usedLengths s.commit.summary) = some next := by
    rw [hsm, usedLengths, firstUsed_eq_some start _ 0 next (by omega) hu fun k hk h => hno k hk (by omega), Nat.zero_add]
  rw [commitVerify, hfirst]
  dsimp only
  rw [placeDescriptor_eq _ _ (by exact hs) (by exact he)]
  rfl

theorem commitVerify_done {sm : HeaderSummary} {start : Nat} (hsm : s.commit.summary = some sm)
    (hno : ∀ k, start ≤ k → sm.used.getD k 0 = 0) : commitVerify start s = enterRecord s := by
  have hfirst : firstUsed start 0 (usedLengths s.commit.summary) = none := by
    rw [hsm, usedLengths, firstUsed_eq_none start _ 0 fun k hk => hno k (by omega)]
  rw [commitVerify, hfirst]

theorem startVerify_next {sm : HeaderSummary} {start next : Nat} (hsm : s.seq.summary = some sm)
    (hs : s.flash.slotWork = .empty) (he : s.flash.erase = none) (hge : start ≤ next) (hu : sm.used.getD next 0 ≠ 0)
    (hno : ∀ k < next, start ≤ k → sm.used.getD k 0 = 0) :
    startVerify start s =
      { s with
        reader := some { client := .sequencer, work := .descriptor next }
        flash :=
          { s.flash with slotWork := .pending (.read (translate .stable s.map.entries 0 (0x10 + 8 * next)) 8) } } := by
  have hfirst : firstUsed start 0 (usedLengths s.seq.summary) = some next := by
    rw [hsm, usedLengths, firstUsed_eq_some start _ 0 next (by omega) hu fun k hk h => hno k hk (by omega), Nat.zero_add]
  rw [startVerify, hfirst]
  dsimp only
  rw [placeDescriptor_eq _ _ hs he]
  rfl

theorem startVerify_done {sm : HeaderSummary} {start : Nat} (hsm : s.seq.summary = some sm)
    (hno : ∀ k, start ≤ k → sm.used.getD k 0 = 0) :
    startVerify start s =
      { s with
        reader := none
        seq := { s.seq with checkResult := .passed, summary := none, work := .ended } } := by
  have hfirst : firstUsed start 0 (usedLengths s.seq.summary) = none := by
    rw [hsm, usedLengths, firstUsed_eq_none start _ 0 fun k hk => hno k (by omega)]
  rw [startVerify, hfirst]
  rfl

/-- R60: a serial is stale. -/
theorem staleSerial_iff (i : ImageUnit) (serial : Word32) :
    staleSerial i serial = true ↔ i.state ≠ .virgin ∧ serial.toNat ≤ i.serial.toNat := by
  simp [staleSerial]

/-- R37: what the end of a session leaves while segments are open. -/
theorem sessionEnded_of_open (h : 0 < s.session.openCount) :
    s.sessionEnded =
      { s with
        map :=
          { s.map with
            entries :=
              s.map.entries.map (fun (e : MapEntry) =>
                if e.phase = .stable ∨ e.phase = .opening then e
                else { bank := e.bank, phase := .stable, fresh := 0, damaged := false, toOpen := 0 }) }
        session :=
          { lock := .free, state := .nobody, owner := none, openCount := 0, openLogged := false, timer := .stopped,
            endReason := none } } := by
  rw [State.sessionEnded, if_pos h]

/-- Settles O54. -/
theorem verificationDecidesByTheCheckValue : Obligations.VerificationDecidesByTheCheckValue := by
  unfold Obligations.VerificationDecidesByTheCheckValue
  intro s seg value hrun hn idle passed failed
  have hexec {r : Reader} (hread : s.reader = some r) : exec .checkRangeResult s =
      .next (rangeResult r (crcFinish s.check.crc) (s.setCheck CheckUnit.reset s.reader)) :=
    exec_checkRangeResult hread hrun hn
  have hfailed {x : State} {out : Host.Outcome State Fault Refusal} (ho : out = .next (checkFailed x)) {sm : Option HeaderSummary}
      (hx : x = { s with check := idle, seq := { s.seq with summary := sm } }) : failed out := by
    subst hx
    rw [ho]
    exact ⟨fun hp ht => congrArg Host.Outcome.next (checkFailed_first hp ht),
      fun h => congrArg Host.Outcome.next (checkFailed_last h)⟩
  refine ⟨fun sm next hcrc hlt hu hno hs he => ?next, fun hcrc hread => ?failedSegment, fun cap => ?header,
    fun sm hcrc hno => ?last, fun hcrc => ?mismatch⟩
  case next =>
    intro descriptor
    have hskip (k : Nat) (hk : k < next) (h : seg + 1 ≤ k) : sm.used.getD k 0 = 0 := hno k h hk
    refine ⟨fun hread hsm => (hexec hread).trans (congrArg Host.Outcome.next ((if_pos hcrc).trans ?_)),
      fun hread hsm => (hexec hread).trans (congrArg Host.Outcome.next ((if_pos hcrc).trans ?_))⟩
    · exact startVerify_next (s := s.setCheck _ _) hsm hs he hlt hu hskip
    · exact commitVerify_next (s := s.setCheck _ _) hsm hs he hlt hu hskip
  case failedSegment =>
    exact hfailed ((hexec hread).trans (congrArg Host.Outcome.next (if_neg hcrc))) (sm := s.seq.summary) rfl
  case header =>
    intro sm
    refine ⟨?_, ?_⟩
    · intro p hread ho hb refused
      have hcommit : exec .checkRangeResult s = .next (commitHeader sm (s.setCheck CheckUnit.reset s.reader)) := hexec hread
      have hfail (code : Code) (hc : code.refuses = true) :
          failCommit code 0xFF
            (State.setCommit (s.setCheck CheckUnit.reset none) { s.commit with summary := some sm }) = refused code := by
        rw [failCommit_eq (p := p) hc (by exact ho) (by cases p <;> exact hb)]
        cases p <;> rfl
      rw [hcommit, ← hfail .headerBad rfl, ← hfail .staleSerial rfl]
      refine ⟨fun hv => congrArg Host.Outcome.next (if_pos hv), fun hv hst hser => congrArg Host.Outcome.next ?_⟩
      have hvalid : ¬sm.valid = false := by simp [hv]
      exact (if_neg hvalid).trans (if_pos ((staleSerial_iff _ _).mpr ⟨hst, hser⟩))
    · intro hread
      have hcheck : exec .checkRangeResult s = .next (startHeaderTaken sm (s.setCheck CheckUnit.reset s.reader)) := hexec hread
      refine ⟨fun hbad => ?_, fun hv hser => ?_⟩
      · have hnot : ¬(sm.valid = true ∧ sm.serial = s.image.serial) := fun hb => by
          rcases hbad with h | h
          · exact Bool.false_ne_true (h.symm.trans hb.1)
          · exact h hb.2
        exact hfailed (hcheck.trans (congrArg Host.Outcome.next (if_neg hnot))) (sm := some sm) rfl
      · have hstart : exec .checkRangeResult s =
            .next (startVerify 0 { s with check := idle, seq := { s.seq with summary := some sm } }) :=
          hcheck.trans (congrArg Host.Outcome.next (if_pos ⟨hv, hser⟩))
        rw [hstart]
        refine ⟨fun hno => ?_, fun first hu hno hs he => ?_⟩
        · rw [startVerify_done (sm := sm) (by rfl) fun k _ => hno k]
        · rw [startVerify_next (sm := sm) (by rfl) (by exact hs) (by exact he) (Nat.zero_le first) hu fun k hk _ => hno k hk]
  case last =>
    refine ⟨fun hread hsm => (hexec hread).trans (congrArg Host.Outcome.next ((if_pos hcrc).trans ?_)),
      fun hread hsm => (hexec hread).trans (congrArg Host.Outcome.next ((if_pos hcrc).trans ?_))⟩
    · exact startVerify_done (s := s.setCheck _ _) hsm hno
    · exact (commitVerify_done (s := s.setCheck CheckUnit.reset s.reader) hsm hno).trans (enterRecord_eq hsm)
  case mismatch =>
    refine ⟨fun p hread ho hopen hb => ?_, fun hread hp ht => ?_⟩
    · rw [hexec hread]
      have hdiffers : rangeResult { client := .commitEngine, work := .segment seg value } (crcFinish s.check.crc)
          (s.setCheck CheckUnit.reset s.reader) = failCommit .checkMismatch (segByte seg) (s.setCheck CheckUnit.reset s.reader) :=
        if_neg hcrc
      rw [hdiffers, failCommit_eq (p := p) rfl (by exact ho) (by cases p <;> exact hb), sessionEnded_of_open (by exact hopen)]
      cases p <;> rfl
    · exact (hfailed ((hexec hread).trans (congrArg Host.Outcome.next (if_neg hcrc))) (sm := s.seq.summary) rfl).1 hp ht

/-! ### FILL (O55) -/

theorem firstStale_eq_some {fresh : SectorSet} {start sector : Nat} (hge : start ≤ sector) (hlt : sector < 16)
    (hstale : fresh.getLsbD sector = false) (hfresh : ∀ j < sector, start ≤ j → fresh.getLsbD j = true) :
    firstStale fresh start = some sector := by
  rw [firstStale, List.find?_range_eq_some]
  refine ⟨by simp [hge, hstale], List.mem_range.mpr hlt, fun j hj => ?_⟩
  by_cases hs : start ≤ j
  · simp [hfresh j hj hs]
  · simp [hs]

theorem getLsbD_allSectors : ∀ j, j < 16 → (0xFFFF : SectorSet).getLsbD j = true := by decide

theorem firstStale_eq_none {fresh : SectorSet} {start : Nat} (hfresh : ∀ j < 16, start ≤ j → fresh.getLsbD j = true) :
    firstStale fresh start = none := by
  rw [firstStale, List.find?_range_eq_none]
  intro j hj
  by_cases hs : start ≤ j
  · simp [hfresh j hj hs]
  · simp [hs]

/-- A mask is full exactly when it has no stale sector. -/
theorem firstStale_zero_eq_none_iff (fresh : SectorSet) : firstStale fresh 0 = none ↔ fresh = 0xFFFF := by
  rw [firstStale, List.find?_range_eq_none]
  constructor
  · intro h
    refine BitVec.eq_of_getLsbD_eq fun j hj => ?_
    have hbit : fresh.getLsbD j = true := by simpa using h j hj
    rw [hbit, getLsbD_allSectors j hj]
  · intro hall j hj
    have hbit : fresh.getLsbD j = true := hall ▸ getLsbD_allSectors j hj
    simp [hbit]

theorem entry_setEntry_same {e : MapEntry} (h : seg < s.map.entries.length) : (s.setEntry seg e).entry seg = e := by
  simp [State.entry, State.setEntry, entryOf, h]

theorem entry_setEntry_ne {e : MapEntry} {k : Nat} (h : k ≠ seg) : (s.setEntry seg e).entry k = s.entry k := by
  simp [State.entry, State.setEntry, entryOf, List.getD, List.getElem?_set_ne (Ne.symm h)]

/-- R61: an entry at which the engine stops to copy. -/
def MapEntry.needsFill (e : MapEntry) : Prop := e.phase = .opened ∧ e.fresh ≠ 0xFFFF

/-- R6: an entry that needs no copy becomes READY if it is OPEN. -/
theorem beginFill_of_not_needsFill {e : MapEntry} (h : ¬e.needsFill) :
    e.beginFill = if e.phase = .opened then { e with phase := .ready } else e := by
  rw [MapEntry.beginFill]
  by_cases ho : e.phase = .opened
  · have hfull : e.fresh = allSectors := by
      exact Decidable.byContradiction fun hne => h ⟨ho, hne⟩
    rw [if_pos ho, if_pos ho, if_pos hfull]
  · rw [if_neg ho, if_neg ho]

theorem beginFill_of_needsFill {e : MapEntry} (h : e.needsFill) : e.beginFill = { e with phase := .filling } := by
  have hstale : e.fresh ≠ allSectors := h.2
  rw [MapEntry.beginFill, if_pos h.1, if_neg hstale]

/-- An entry of the map after another one has been taken by the fill. -/
theorem entry_beginFill {k : Nat} (h : k ≠ seg) : (updateEntry seg MapEntry.beginFill s).entry k = s.entry k :=
  entry_setEntry_ne h

/-- R61: the fill passes over an entry that needs no copy. -/
theorem fillFrom_pass {k : Nat} (h : ¬(s.entry seg).needsFill) :
    fillFrom (k + 1) seg s = fillFrom k (seg + 1) (updateEntry seg MapEntry.beginFill s) := by
  rw [fillFrom]
  by_cases ho : (s.entry seg).phase = .opened
  · have hfull : (s.entry seg).fresh = 0xFFFF := by
      exact Decidable.byContradiction fun hne => h ⟨ho, hne⟩
    rw [if_pos ho, (firstStale_zero_eq_none_iff _).mpr hfull]
  · rw [if_neg ho, updateEntry, beginFill_of_not_needsFill h, if_neg ho, setEntry_entry]

/-- What has gone on from the next entry has gone on from an entry that was passed over. -/
theorem FillGoesOn_of_pass {sm : HeaderSummary} {t : State} (hlen : s.map.entries.length = 255) (hseg : seg < 255)
    (h : ¬(s.entry seg).needsFill) (hgoes : State.FillGoesOn (updateEntry seg MapEntry.beginFill s) (seg + 1) sm t) :
    State.FillGoesOn s seg sm t := by
  have hsame {k : Nat} (hk : k ≠ seg) := entry_beginFill (s := s) hk
  have hready : (updateEntry seg MapEntry.beginFill s).entry seg =
      if (s.entry seg).phase = .opened then { s.entry seg with phase := .ready } else s.entry seg :=
    (entry_setEntry_same (by omega)).trans (beginFill_of_not_needsFill h)
  have hstale (k : Nat) :
      (seg + 1 ≤ k ∧ k < 255 ∧ ((updateEntry seg MapEntry.beginFill s).entry k).phase = .opened ∧
          ((updateEntry seg MapEntry.beginFill s).entry k).fresh ≠ 0xFFFF) ↔
        seg ≤ k ∧ k < 255 ∧ (s.entry k).phase = .opened ∧ (s.entry k).fresh ≠ 0xFFFF := by
    by_cases hk : k = seg
    · subst hk
      exact ⟨fun hx => absurd hx.1 (by omega), fun hx => absurd hx.2.2 h⟩
    · rw [hsame hk]
      exact and_congr_left' (by omega)
  obtain ⟨es, hes, hfill, hdone⟩ := hgoes
  have hlength : (updateEntry seg MapEntry.beginFill s).map.entries.length = s.map.entries.length := List.length_set
  refine ⟨es, hes.trans hlength, fun at_ sector hat hno hsector hbit hfresh => ?_, fun hno => ?_⟩
  · have hne : at_ ≠ seg := fun heq => by
      rw [heq] at hat
      exact h hat.2.2
    have hlt : seg < at_ := by
      have := hat.1
      omega
    obtain ⟨hentries, ht⟩ := hfill at_ sector ((hstale at_).mpr hat) (fun k hk => mt (hstale k).mp (hno k hk)) hsector
      (by rw [hsame hne]; exact hbit) (by rw [hsame hne]; exact hfresh)
    refine ⟨fun k hk => ?_, ?_⟩
    · rw [hentries k hk]
      by_cases hks : k = seg
      · subst hks
        rw [if_neg (by omega), hready]
        by_cases ho : (s.entry k).phase = .opened
        · rw [if_pos ho, if_pos ⟨Nat.le_refl k, Nat.le_of_lt hlt, ho⟩, if_neg (Nat.ne_of_lt hlt)]
        · rw [if_neg ho, if_neg fun hx => ho hx.2.2]
      · rw [hsame hks]
        exact ite_congr (propext (and_congr_left fun _ => by omega)) (fun _ => rfl) fun _ => rfl
    · rw [ht, hsame hne]
      rfl
  · obtain ⟨hentries, hverify, hrecord⟩ := hdone fun k => mt (hstale k).mp (hno k)
    refine ⟨fun k hk => ?_, hverify, hrecord⟩
    rw [hentries k hk]
    by_cases hks : k = seg
    · subst hks
      rw [if_neg (by omega), hready]
      exact ite_congr (propext (by simp)) (fun _ => rfl) fun _ => rfl
    · rw [hsame hks]
      exact ite_congr (propext (and_congr_left fun _ => by omega)) (fun _ => rfl) fun _ => rfl

theorem placeCopyRead_eq (cur : Cursor) (page : Nat) (hs : s.flash.slotWork = .empty) (he : s.flash.erase = none) :
    placeCopyRead cur page s =
      { s with
        commit := { s.commit with stage := .fill, cursor := some cur, page := page, buffer := none }
        flash :=
          { s.flash with
            slotWork :=
              .pending (.read (physAddr (s.entry cur.seg).bank cur.seg (cur.sector * 0x1000 + page * 0x100)) 256) } } := by
  rw [placeCopyRead, place_of_idle _ (by exact hs) (by exact he)]
  rfl

theorem placeCopyRead_of_fill (cur : Cursor) (page : Nat) (hst : s.commit.stage = .fill) (hs : s.flash.slotWork = .empty)
    (he : s.flash.erase = none) :
    placeCopyRead cur page s =
      { s with
        commit := { s.commit with cursor := some cur, page := page, buffer := none }
        flash :=
          { s.flash with
            slotWork :=
              .pending (.read (physAddr (s.entry cur.seg).bank cur.seg (cur.sector * 0x1000 + page * 0x100)) 256) } } := by
  rw [placeCopyRead_eq _ _ hs he, ← hst]

/-- The fill stops at an entry that needs a copy. -/
theorem FillGoesOn_of_stop {sm : HeaderSummary} {k : Nat} (hlen : s.map.entries.length = 255) (hseg : seg < 255)
    (hs : s.flash.slotWork = .empty) (he : s.flash.erase = none) (h : (s.entry seg).needsFill) :
    State.FillGoesOn s seg sm (fillFrom (k + 1) seg s) := by
  have hstop {sector : Nat} (hsector : firstStale (s.entry seg).fresh 0 = some sector) :
      fillFrom (k + 1) seg s = placeCopyRead { seg := seg, sector := sector } 0 (updateEntry seg MapEntry.beginFill s) := by
    rw [fillFrom, if_pos h.1, hsector]
  have hfilling : (updateEntry seg MapEntry.beginFill s).entry seg = { s.entry seg with phase := .filling } :=
    (entry_setEntry_same (by omega)).trans (beginFill_of_needsFill h)
  refine ⟨(updateEntry seg MapEntry.beginFill s).map.entries, List.length_set,
    fun at_ sector hat hno hsector hbit hfresh => ?_, fun hno => absurd ⟨Nat.le_refl seg, hseg, h⟩ (hno seg)⟩
  obtain rfl : at_ = seg := by
    have hge := hat.1
    exact Decidable.byContradiction fun hne => hno seg (by omega) ⟨Nat.le_refl seg, hseg, h⟩
  refine ⟨fun j hj => ?_, ?_⟩
  · by_cases hjs : j = at_
    · subst hjs
      rw [if_pos ⟨Nat.le_refl j, Nat.le_refl j, h.1⟩, if_pos rfl]
      exact hfilling
    · rw [if_neg (by omega)]
      exact entry_beginFill hjs
  · rw [hstop (firstStale_eq_some (Nat.zero_le _) hsector hbit fun j hj _ => hfresh j hj),
      placeCopyRead_eq _ _ (by exact hs) (by exact he), hfilling, Nat.zero_mul, Nat.add_zero]
    rfl

/-- R61: the fill goes on at an entry, the entries up to segment 254 still to be taken. -/
theorem fillFrom_goesOn {sm : HeaderSummary} : ∀ (k seg : Nat) (s : State), seg + k = 255 → s.map.entries.length = 255 →
    s.flash.slotWork = .empty → s.flash.erase = none → s.commit.summary = some sm →
    State.FillGoesOn s seg sm (fillFrom k seg s)
  | 0, seg, s, hseg, _, hs, he, hsm => by
    refine ⟨s.map.entries, rfl, fun at_ _ hat => ?_, fun _ => ⟨fun k hk => ?_, fun next hu hno => ?_, fun hno => ?_⟩⟩
    · have hge := hat.1
      have hlt := hat.2.1
      omega
    · rw [if_neg (by omega)]
      rfl
    · rw [fillFrom, commitVerify_next (by exact hsm) (by exact hs) (by exact he) (Nat.zero_le next) hu fun j hj _ => hno j hj]
      rfl
    · intro bitmap
      rw [fillFrom, commitVerify_done (by exact hsm) fun j _ => hno j, enterRecord_eq (by exact hsm)]
      rfl
  | k + 1, seg, s, hseg, hlen, hs, he, hsm => by
    by_cases h : (s.entry seg).needsFill
    · exact FillGoesOn_of_stop hlen (by omega) hs he h
    · rw [fillFrom_pass h]
      have hlen' : (updateEntry seg MapEntry.beginFill s).map.entries.length = 255 := List.length_set.trans hlen
      exact FillGoesOn_of_pass hlen (by omega) h (fillFrom_goesOn k (seg + 1) _ (by omega) hlen' hs he hsm)

/-- R60, R61: a valid header that is not stale starts the fill at segment 0. -/
theorem commitHeader_fills {sm : HeaderSummary} (hv : sm.valid = true)
    (hser : s.image.state = .virgin ∨ s.image.serial.toNat < sm.serial.toNat) :
    commitHeader sm s =
      fillFrom 255 0 { s with reader := none, commit := { s.commit with stage := .fill, summary := some sm } } := by
  have hvalid : ¬sm.valid = false := by simp [hv]
  have hstale : ¬staleSerial s.image sm.serial = true := fun h => by
    obtain ⟨hne, hle⟩ := (staleSerial_iff _ _).mp h
    exact hser.elim hne fun hlt => Nat.not_le.mpr hlt hle
  exact (if_neg hvalid).trans (if_neg hstale)

/-- R62: the program of a page that was read is placed. -/
theorem copyReadDone_eq (cur : Cursor) (bytes : List Byte) (hs : s.flash.slotWork = .empty) (he : s.flash.erase = none) :
    copyReadDone cur bytes s =
      { s with
        commit := { s.commit with buffer := some (s.commit.page, bytes) }
        flash :=
          { s.flash with
            slotWork :=
              .pending
                (.program (physAddr (s.entry cur.seg).bank.other cur.seg (cur.sector * 0x1000 + s.commit.page * 0x100))
                  bytes) } } := by
  rw [copyReadDone, place_of_idle _ (by exact hs) (by exact he)]
  rfl

section
variable {cur : Cursor}

theorem copyProgramDone_nextPage (hc : s.commit.cursor = some cur) (hp : s.commit.page < 15) :
    copyProgramDone true s = placeCopyRead cur (s.commit.page + 1) s := by
  rw [copyProgramDone, hc]
  exact if_pos hp

theorem copyProgramDone_nextSector {sector : Nat} (hc : s.commit.cursor = some cur) (hp : s.commit.page = 15)
    (hstale : firstStale (s.entry cur.seg).fresh (cur.sector + 1) = some sector) :
    copyProgramDone true s = placeCopyRead { cur with sector := sector } 0 s := by
  rw [copyProgramDone, hc]
  dsimp only
  rw [if_pos rfl, if_neg (by omega), hstale]

/-- R6, R61: after the last stale sector of an entry it is READY, and the fill goes on at the next one. -/
theorem copyProgramDone_nextSegment (hc : s.commit.cursor = some cur) (hp : s.commit.page = 15)
    (hfull : firstStale (s.entry cur.seg).fresh (cur.sector + 1) = none) (hphase : (s.entry cur.seg).phase = .filling) :
    copyProgramDone true s =
      fillFrom (255 - (cur.seg + 1)) (cur.seg + 1)
        (State.setEntry { s with commit := { s.commit with page := 0, buffer := none } } cur.seg
          { s.entry cur.seg with phase := .ready }) := by
  have hend : (s.entry cur.seg).endFill = { s.entry cur.seg with phase := .ready } := if_pos hphase
  rw [copyProgramDone, hc]
  dsimp only
  rw [if_pos rfl, if_neg (by omega), hfull]
  dsimp only
  rw [updateEntry, hend]
  rfl

theorem copyProgramDone_failed (hc : s.commit.cursor = some cur) :
    copyProgramDone false s =
      failCommit .fillFail (segByte cur.seg) (s.setCommit { s.commit with buffer := none }) := by
  rw [copyProgramDone, hc]
  rfl

end

/-- Settles O55. -/
theorem fillCopiesPageByPage : Obligations.FillCopiesPageByPage := by
  unfold Obligations.FillCopiesPageByPage
  refine ⟨fun s cap hread hrun hn hs he hlen => ?starts, fun s cur x run data hst hc hp he ht hrun => ?lastPage,
    fun s cur hst hc he => ⟨fun a n hb hfl => ?read, fun x data run left => ?program⟩⟩
  case starts =>
    intro sm hv hser
    refine ⟨_, exec_checkRangeResult hread hrun hn, ?_⟩
    have htaken : rangeResult { client := .commitEngine, work := .header cap } (crcFinish s.check.crc)
        (s.setCheck CheckUnit.reset s.reader) = commitHeader sm (s.setCheck CheckUnit.reset s.reader) := rfl
    rw [htaken, commitHeader_fills (s := s.setCheck CheckUnit.reset s.reader) hv hser]
    exact fillFrom_goesOn 255 0 _ rfl hlen hs he rfl
  case lastPage =>
    intro fresh copied
    have hexec : exec (.copyProgramComplete .success) s = .next (copyProgramDone true copied) :=
      exec_copyProgramComplete .success ht hrun hst
    refine ⟨fun sector hlt hsector hbit hfresh => ?_, fun sm hfresh hseg hlen hsm hphase => ?_⟩
    · rw [hexec, copyProgramDone_nextSector (s := copied) hc hp (firstStale_eq_some hlt hsector hbit fun j hj h => hfresh j h hj),
        placeCopyRead_of_fill (s := copied) _ _ hst rfl he, Nat.zero_mul, Nat.add_zero]
      rfl
    · refine ⟨_, hexec, ?_⟩
      rw [copyProgramDone_nextSegment (s := copied) hc hp (firstStale_eq_none fun j hj h => hfresh j h hj) hphase]
      exact fillFrom_goesOn _ _ _ (by omega) (List.length_set.trans hlen) rfl he hsm
  case read =>
    have hexec : exec .copyReadComplete s = .next (copyReadDone cur (readFlash s a n) (finishRead .work a n s)) := by
      show execCopyReadComplete s = _
      rw [execCopyReadComplete, hc, hfl]
      exact if_pos ⟨hst, hb⟩
    rw [hexec, readFlash_of_no_erase a n he, finishRead_of_no_erase .work a n he, copyReadDone_eq _ _ rfl (by exact he)]
    rfl
  case program =>
    intro ht hrun
    refine ⟨fun hp => ?_, fun p ho hopen hb => ?_⟩
    · rw [exec_copyProgramComplete .success ht hrun hst, reportOk, reportLeft,
        copyProgramDone_nextPage (s := finishProgram .work x data [] s) hc hp,
        placeCopyRead_of_fill (s := finishProgram .work x data [] s) _ _ hst rfl he, ← hc]
      rfl
    · rw [exec_copyProgramComplete _ ht hrun hst, reportOk, reportLeft, copyProgramDone_failed (by exact hc),
        failCommit_eq (p := p) rfl (by exact ho) (by cases p <;> exact hb), sessionEnded_of_open (by exact hopen)]
      cases p <;> rfl

end

end Sys2Proof.Machine
end

section
/-!
PROOF of O56 to O59: the Log Unit. How each requester is answered is stated for any state (`…Answered_…`); an append that is
refused, that fails or that succeeds differs in the state its requester is answered in.
-/

namespace Sys2Proof.Machine

section
variable {p : Port} {s : State} {b : RecordBody} {rest : List RecordBody} {w : Append}

/-! ### Appends leave the queue -/

theorem popAppend_eq (hq : s.log.queue = b :: rest) :
    popAppend s = { s with log := { s.log with queue := rest, append := none } } := by
  rw [popAppend, hq]
  rfl

theorem refuseAppend_eq (hq : s.log.queue = b :: rest) (ha : s.log.append = none) :
    refuseAppend b s = answerAppend b false { s with log := { s.log with queue := rest } } := by
  rw [refuseAppend, popAppend_eq hq, ← ha]

/-- R86, R87, R89: an append that fails with the Log Unit OK. -/
theorem failAppend_eq (hq : s.log.queue = b :: rest) (hok : s.log.lock = .ok) :
    failAppend b s =
      answerAppend b false
        { s with
          log := { s.log with queue := rest, append := none, lock := .faulted }
          faults := { s.faults with logFault := true } } := by
  have hfail : logFail s = raiseFault .logFault (s.setLog { s.log with lock := .faulted }) := logFail_of_ok hok
  rw [failAppend, hfail, popAppend_eq (by exact hq)]
  rfl

/-- R84: an append that succeeds. -/
theorem succeedAppend_eq (hq : s.log.queue = b :: rest) :
    succeedAppend b s =
      answerAppend b true
        { s with
          log :=
            { s.log with
              queue := rest
              append := none
              summary := applyRecord s.log.summary b
              nextSeq := s.log.nextSeq + 1 } } := by
  rw [succeedAppend, popAppend_eq hq]
  rfl

/-! ### The requester of an append that is not recorded (R25, R67, R103, R105, R109 to R112) -/

/-- R153: a refusal makes a port READY. -/
theorem result_refused {q : HostPort} (h : q.state = .opBusy) {code : Code} (hc : code.refuses = true) (seg : BitVec 8) :
    q.result code seg = { q.answered code seg with refused := true } := by
  rw [result_of_busy h, outcome_of_refuses hc]
  rfl

theorem openAnswered_failed {f : InFlight} (h : OwnerBusy p f s) (hst : s.session.state = .active) :
    openAnswered false s =
      State.setPort (s.setSession Session.reset) p
        { (s.port p).answered .logFail (f.addr.extractLsb' 16 8) with refused := true } := by
  have hport : (s.setSession Session.reset).port p = s.port p := by cases p <;> rfl
  rw [openAnswered]
  simp only [Bool.false_eq_true, if_false, h.owner, if_neg (not_ending_of_active hst), h.inFlight]
  rw [giveResult_of_not_owner (fun hown => by cases hown), hport, result_refused h.busy rfl]
  rfl

/-- R39: the OPEN of a session in ENDING is answered by the end of the session, whether it was recorded or not. -/
theorem openAnswered_ending (ok : Bool) (ho : s.session.owner = some p) (hb : (s.port p).state = .opBusy)
    (hst : s.session.state = .ending) :
    openAnswered ok s =
      State.setPort
        (State.sessionEnded (if ok then { s with image := { s.image with targetValid := false } } else s)) p
        ((s.port p).answered .abandonedOwner 0xFF) := by
  cases ok with
  | false =>
    rw [openAnswered]
    simp only [Bool.false_eq_true, if_false, ho, hst, if_true]
    rw [abandonSession_owner ho, result_done hb rfl (by decide)]
  | true =>
    have hport (x : Session) (i : ImageUnit) : ((s.setSession x).setImage i).port p = s.port p := by cases p <;> rfl
    rw [openAnswered]
    simp only [if_true, ho, hst]
    rw [abandonSession_owner (p := p) (by rfl), hport, result_done hb rfl (by decide)]
    rfl

theorem confirmAnswered_failed {serial : Word32} (hacc : s.image.acceptance = some (p, serial))
    (hst : s.image.state = .confirming) (hb : (s.port p).state = .opBusy) (ho : s.session.owner ≠ some p) :
    confirmAnswered false s =
      State.setPort { s with image := { s.image with state := .trial, acceptance := none } } p
        { (s.port p).answered .logFail 0xFF with refused := true } := by
  have hport (i : ImageUnit) : (s.setImage i).port p = s.port p := by cases p <;> rfl
  rw [confirmAnswered, hacc]
  simp only [Bool.false_eq_true, if_false, hst, if_true]
  rw [giveResult_of_not_owner (by exact ho), hport, result_refused hb rfl]
  rfl

theorem rollbackAnswered_failed_port (hr : s.image.rollback = some (.port p, .requested)) (hl : s.session.lock = .rollback)
    (hb : (s.port p).state = .opBusy) (ho : s.session.owner ≠ some p) :
    rollbackAnswered false s =
      State.setPort
        { s with image := { s.image with rollback := none }, session := { s.session with lock := .free } } p
        { (s.port p).answered .logFail 0xFF with refused := true } := by
  have hfree : freeRollback (s.setImage { s.image with rollback := none }) =
      { s with image := { s.image with rollback := none }, session := { s.session with lock := .free } } := if_pos hl
  rw [rollbackAnswered, hr]
  simp only [Bool.false_eq_true, if_false]
  rw [hfree, giveResult_of_not_owner (by exact ho), result_refused (by cases p <;> exact hb) rfl]
  cases p <;> rfl

theorem rollbackAnswered_failed_trial (hr : s.image.rollback = some (.sequencer, .trialExpired)) :
    rollbackAnswered false s =
      { s with
        image := { s.image with rollback := none }
        faults := { s.faults with trialExpired := true }
        seq := { s.seq with phase := .check, work := .notBegun } } := by
  rw [rollbackAnswered, hr]
  rfl

theorem rollbackAnswered_failed_check (hr : s.image.rollback = some (.sequencer, .startCheck)) :
    rollbackAnswered false s =
      { s with
        image := { s.image with rollback := none }
        faults := { s.faults with noValidImage := true }
        seq := { s.seq with checkResult := .failed, work := .ended } } := by
  rw [rollbackAnswered, hr]
  rfl

/-! ### The request at the head of the queue (O56) -/

theorem exec_appendWrite (hq : s.log.queue = b :: rest) (ha : s.log.append = none) (hi : s.log.initStep = none)
    (hr : s.log.replay = none) : exec .appendWrite s = .next (startAppend b s) := by
  show execAppendWrite s = _
  rw [execAppendWrite, hq]
  exact if_pos (by simp [LogUnit.idle, ha, hi, hr])

theorem current_of_area {area : Area} (h : s.log.area = some area) : s.log.current = area := by
  rw [LogUnit.current, h]
  rfl

/-- R84, R86: the record of a request is written on an idle slot. -/
theorem writeRecord_eq (stage : AppendStage) (b : RecordBody) (hs : s.flash.slotLog = .empty) (he : s.flash.erase = none) :
    writeRecord stage b s =
      { s with
        log :=
          { s.log with append := some { stage := stage, position := s.log.position, seq := s.log.nextSeq, retry := false } }
        flash :=
          { s.flash with
            slotLog :=
              .pending (.program (areaBase s.log.current + s.log.position * 128) (recordBytes s.log.nextSeq b)) } } := by
  rw [writeRecord, place_of_idle _ (by exact hs) (by exact he)]
  rfl

/-- R87: the sequence numbers that are left do not suffice for a compaction. -/
theorem compactOrRefuse_refused (retry : Bool) (b : RecordBody) (h : 0xFFFFFFFE ≤ s.log.nextSeq.toNat) :
    compactOrRefuse retry b s = failAppend b s := if_pos h

/-- R88: a full area is compacted. -/
theorem compactOrRefuse_eq (retry : Bool) (b : RecordBody) (h : s.log.nextSeq.toNat < 0xFFFFFFFE)
    (hs : s.flash.slotLog = .empty) (he : s.flash.erase = none) :
    compactOrRefuse retry b s =
      { s with
        log :=
          { s.log with
            append :=
              some
                { stage := .compacting .erase, position := s.log.position, seq := s.log.nextSeq, retry := retry } }
        flash := { s.flash with slotLog := .pending (.blockErase (areaBase s.log.current.other)) } } := by
  rw [compactOrRefuse, if_neg (Nat.not_le.mpr h), place_of_idle _ (by exact hs) (by exact he)]
  rfl

theorem startAppend_locked (h : s.log.lock ≠ .ok) : startAppend b s = refuseAppend b s := if_pos h

theorem startAppend_full (hok : s.log.lock = .ok) (hp : s.log.position = 512) :
    startAppend b s = compactOrRefuse false b s := (if_neg fun h => h hok).trans (if_pos hp)

theorem startAppend_exhausted (hok : s.log.lock = .ok) (hp : s.log.position < 512) (hn : s.log.nextSeq = 0xFFFFFFFF) :
    startAppend b s = failAppend b s :=
  (if_neg fun h => h hok).trans ((if_neg (Nat.ne_of_lt hp)).trans (if_pos hn))

theorem startAppend_writes (hok : s.log.lock = .ok) (hp : s.log.position < 512) (hn : s.log.nextSeq ≠ 0xFFFFFFFF) :
    startAppend b s = writeRecord .write b s :=
  (if_neg fun h => h hok).trans ((if_neg (Nat.ne_of_lt hp)).trans (if_neg hn))

/-- Settles O56. -/
theorem appendWritesCompactsOrIsRefused : Obligations.AppendWritesCompactsOrIsRefused := by
  unfold Obligations.AppendWritesCompactsOrIsRefused
  intro s b rest hq ha hi hr
  have hexec := exec_appendWrite hq ha hi hr
  have hlocked (hl : s.log.lock ≠ .ok) :
      exec .appendWrite s = .next (answerAppend b false { s with log := { s.log with queue := rest } }) := by
    rw [hexec, startAppend_locked hl, refuseAppend_eq hq ha]
  have hexhausted (hok : s.log.lock = .ok)
      (hfull : (s.log.position < 512 ∧ s.log.nextSeq = 0xFFFFFFFF) ∨ (s.log.position = 512 ∧ 0xFFFFFFFE ≤ s.log.nextSeq.toNat)) :
      exec .appendWrite s =
        .next (answerAppend b false
          { s with
            log := { s.log with queue := rest, lock := .faulted }, faults := { s.faults with logFault := true } }) := by
    have hfail : startAppend b s = failAppend b s := by
      rcases hfull with ⟨hp, hn⟩ | ⟨hp, hn⟩
      · exact startAppend_exhausted hok hp hn
      · rw [startAppend_full hok hp, compactOrRefuse_refused _ _ hn]
    rw [hexec, hfail, failAppend_eq hq hok, ← ha]
  refine ⟨fun area hok harea hs he => ⟨fun hp hn => ?_, fun hp hn => ?_⟩, fun p serial hb hacc hst hport ho => ?_,
    fun hok hfull => ?_, fun hl => ?_⟩
  · rw [hexec, startAppend_writes hok hp hn, writeRecord_eq _ _ hs he, current_of_area harea]
  · rw [hexec, startAppend_full hok hp, compactOrRefuse_eq _ _ hn hs he, current_of_area harea, hp]
  · subst hb
    intro answered
    refine ⟨fun hl => ?_, fun hok hfull => ?_⟩
    · rw [hlocked hl, answerAppend, confirmAnswered_failed (by exact hacc) (by exact hst) (by cases p <;> exact hport) (by exact ho)]
      cases p <;> rfl
    · rw [hexhausted hok hfull, answerAppend,
        confirmAnswered_failed (by exact hacc) (by exact hst) (by cases p <;> exact hport) (by exact ho)]
      cases p <;> rfl
  · rw [hexhausted hok hfull, exec_appendWrite (b := b) (rest := rest) (by exact hq) (by exact ha) (by exact hi) (by exact hr),
      startAppend_locked (by exact fun h => nomatch h), refuseAppend_eq (by exact hq) (by exact ha)]
  · intro refused answered
    rw [hlocked hl]
    refine ⟨fun p hb ho hport => ⟨fun f hst hf => ?_, fun hst => ?_⟩, fun bm serial crc limit p hb ho hport => ?_,
      fun count hb => ?_, fun bm serial cause hb => ⟨fun p hroll hlock ho hport => ?_, fun hroll => ?_, fun hroll => ?_⟩⟩
    all_goals subst hb
    · have hbusy : OwnerBusy p f refused := ⟨ho, by cases p <;> exact hport, by cases p <;> exact hf⟩
      exact congrArg Host.Outcome.next ((openAnswered_failed hbusy hst).trans (by cases p <;> rfl))
    · exact congrArg Host.Outcome.next ((openAnswered_ending (s := refused) (p := p) false ho (by cases p <;> exact hport) hst).trans
        (by cases p <;> rfl))
    · exact congrArg Host.Outcome.next ((failCommit_eq (s := refused) (p := p) (code := .logFail) rfl ho
        (by cases p <;> exact hport) 0xFF).trans (by cases p <;> rfl))
    · rfl
    · exact congrArg Host.Outcome.next ((rollbackAnswered_failed_port (s := refused) (p := p) hroll hlock
        (by cases p <;> exact hport) ho).trans (by cases p <;> rfl))
    · exact congrArg Host.Outcome.next (rollbackAnswered_failed_trial (s := refused) hroll)
    · exact congrArg Host.Outcome.next (rollbackAnswered_failed_check (s := refused) hroll)

/-! ### The program of a record ends (O57) -/

theorem recordDone_ok (hq : s.log.queue = b :: rest) (ha : s.log.append = some w)
    (hw : w.stage = .write ∨ w.stage = .retryWrite) :
    recordDone true s =
      answerAppend b true
        { s with
          log :=
            { s.log with
              queue := rest
              append := none
              position := s.log.position + 1
              nextSeq := s.log.nextSeq + 1
              summary := applyRecord s.log.summary b } } := by
  have hsucceed : recordDone true s = succeedAppend b (s.setLog { s.log with position := s.log.position + 1 }) := by
    rw [recordDone, ha, hq]
    dsimp only
    rcases hw with hw | hw <;> rw [hw] <;> rfl
  rw [hsucceed, succeedAppend_eq (by exact hq)]
  rfl

/-- R85: the failure of the program of a record is read back. -/
theorem recordDone_failed (hq : s.log.queue = b :: rest) (ha : s.log.append = some w)
    (hw : w.stage = .write ∨ w.stage = .retryWrite) (hs : s.flash.slotLog = .empty) (he : s.flash.erase = none) :
    recordDone false s =
      { s with
        log :=
          { s.log with
            position := s.log.position + 1
            append := some { w with stage := if w.stage = .write then .readBack else .retryReadBack } }
        flash :=
          { s.flash with slotLog := .pending (.read (areaBase (s.log.area.getD .zero) + w.position * 128) 128) } } := by
  rw [recordDone, ha, hq]
  dsimp only
  rcases hw with hw | hw
  all_goals
    rw [hw]
    show place .log _ _ = _
    rw [place_of_idle _ (by exact hs) (by exact he)]
    rfl

theorem openAnswered_opens {f : InFlight} (ho : s.session.owner = some p) (hst : s.session.state = .active)
    (hf : (s.port p).inFlight = some f) :
    openAnswered true s =
      openSegment p f
        { s with
          session := { s.session with openLogged := true }, image := { s.image with targetValid := false } } := by
  rw [openAnswered]
  simp only [if_true, ho, hst, hf]
  rfl

theorem confirmAnswered_ok {serial : Word32} (hacc : s.image.acceptance = some (p, serial))
    (hst : s.image.state = .confirming) (hser : s.image.serial = serial) (hb : (s.port p).state = .opBusy)
    (ho : s.session.owner ≠ some p) :
    confirmAnswered true s =
      State.setPort { s with image := { s.image with state := .confirmed, acceptance := none } } p
        ((s.port p).answered .confirmed 0xFF) := by
  have hport (i : ImageUnit) : (s.setImage i).port p = s.port p := by cases p <;> rfl
  rw [confirmAnswered, hacc]
  dsimp only
  rw [if_pos rfl, if_pos ⟨hst, hser.symm⟩, giveResult_of_not_owner (by exact ho), hport, result_done hb rfl (by decide)]
  rfl

/-- R15: a switch that is requested is pending, and takes effect at once when no transfer is pinned. -/
theorem requestSwitch_answers (r : SwitchRequester) (flip : Bitmap) {requested : State}
    (h : requested = { s with map := { s.map with switch := some { requester := r, flip := flip, endsEpoch := s.map.epoch } } }) :
    (s.map.pinned ≠ 0 → requestSwitch r flip s = requested) ∧
    (s.map.pinned = 0 → Host.Outcome.next (requestSwitch r flip s) = exec .switchTakesEffect requested) := by
  subst h
  refine ⟨fun hp => if_neg hp, fun hp => (congrArg Host.Outcome.next (if_pos hp)).trans (Eq.symm ?_)⟩
  exact if_pos hp

/-- Settles O57. -/
theorem recordProgramEnds : Obligations.RecordProgramEnds := by
  unfold Obligations.RecordProgramEnds
  intro s b rest w x run data left hq ha hw he ht hrun
  have hat : s.log.atRecord = true := atRecord_of_write ha hq hw
  have hdone : exec (.recordProgramComplete .success) s =
      .next (answerAppend b true
        { s with
          mem := memProgram s.mem x data []
          flash := { s.flash with transfer := none, slotLog := .empty }
          log :=
            { s.log with
              queue := rest
              append := none
              position := s.log.position + 1
              nextSeq := s.log.nextSeq + 1
              summary := applyRecord s.log.summary b } }) := by
    rw [exec_recordProgramComplete .success ht hrun hat]
    exact congrArg Host.Outcome.next (recordDone_ok (s := finishProgram .log x data [] s) hq ha hw)
  refine ⟨fun p serial hb hacc hst hser hport ho => ?confirm, ?answers, ?failed⟩
  case confirm =>
    subst hb
    rw [hdone, answerAppend, confirmAnswered_ok (by exact hacc) (by exact hst) (by exact hser) (by cases p <;> exact hport)
      (by exact ho)]
    cases p <;> rfl
  case failed =>
    rw [exec_recordProgramComplete _ ht hrun hat]
    exact congrArg Host.Outcome.next (recordDone_failed (s := finishProgram .log x data left s) hq ha hw rfl he)
  case answers =>
    intro logged switches
    have hlogged : exec (.recordProgramComplete .success) s =
        .next (answerAppend b true (logged (applyRecord s.log.summary b))) := hdone
    refine ⟨?opened, fun count hb => ?trial, fun bm serial crc limit hb => ?commit, fun bm serial cause who hb hroll => ?rollback⟩
    case opened =>
      intro p hb ho invalid
      subst hb
      rw [hlogged]
      refine ⟨fun f addr toOpen hst hf hsectors hph hslot => ?_, fun hst hport => ?_⟩
      · have hopens := openAnswered_opens (s := logged (applyRecord s.log.summary .opened)) (p := p) (f := f) ho hst
          (by cases p <;> exact hf)
        have hflash : (s.flash.setSlot .log .empty).slot (portClient p) = .empty := by cases p <;> exact hslot
        rw [answerAppend, hopens]
        rcases hsectors with ⟨rfl, rfl⟩ | ⟨rfl, rfl⟩
        all_goals
          rw [openSegment_eq (by exact hph) (by exact hflash) (by exact he)]
          cases p <;> rfl
      · exact congrArg Host.Outcome.next ((openAnswered_ending (s := logged _) (p := p) true ho (by cases p <;> exact hport) hst).trans
          (by cases p <;> rfl))
    case trial =>
      subst hb
      exact hlogged
    case commit =>
      subst hb
      obtain ⟨hpending, hnow⟩ := requestSwitch_answers .commitEngine (readySet s.map.entries)
        (s := State.setCommit (logged _) { s.commit with stage := .switch }) rfl
      exact ⟨fun hp => hlogged.trans (congrArg Host.Outcome.next (hpending hp)), fun hp => hlogged.trans (hnow hp)⟩
    case rollback =>
      subst hb
      obtain ⟨hpending, hnow⟩ := requestSwitch_answers .imageState (rollbackFlip s.map.entries s.image.targetBitmap)
        (s := logged _) rfl
      have hanswered : exec (.recordProgramComplete .success) s =
          .next (requestSwitch .imageState (rollbackFlip s.map.entries s.image.targetBitmap)
            (logged (applyRecord s.log.summary (.rollback bm serial cause)))) := by
        rw [hlogged, answerAppend, rollbackAnswered, show (logged _).image.rollback = some who from hroll]
        rfl
      exact ⟨fun hp => hanswered.trans (congrArg Host.Outcome.next (hpending hp)), fun hp => hanswered.trans (hnow hp)⟩

/-! ### The read-back of a record (O58) -/

theorem recordStands_of_valid {seq : Word32} {bs : List Byte} {body : RecordBody} (h : validRecord bs = some (seq, body)) :
    recordStands seq bs = true := by
  rw [recordStands, h]
  exact decide_eq_true rfl

theorem recordStands_of_invalid {seq : Word32} {bs : List Byte} (h : ∀ body, validRecord bs ≠ some (seq, body)) :
    recordStands seq bs = false := by
  rw [recordStands]
  split
  · next q body hq => exact decide_eq_false fun hs => h body (hs ▸ hq)
  · rfl

theorem exec_readBackComplete {a n : Nat} (hq : s.log.queue = b :: rest) (ha : s.log.append = some w)
    (hw : w.stage = .readBack ∨ w.stage = .retryReadBack) (hfl : s.flash.readInFlight .log = some (a, n))
    (he : s.flash.erase = none) :
    exec .readBackComplete s =
      .next (readBackDone (memReadBytes s.mem a n) (s.setFlash (s.flash.endTransfer .log))) := by
  have hat : s.log.atReadBack = true := by
    rcases hw with hw | hw <;> simp [LogUnit.atReadBack, ha, hq, hw]
  show execReadBackComplete s = _
  rw [execReadBackComplete, hfl]
  dsimp only
  rw [if_pos hat, readFlash_of_no_erase a n he, finishRead_of_no_erase .log a n he]

section
variable {bs : List Byte}

/-- R85, R86: the record stands. -/
theorem readBackDone_stands (hq : s.log.queue = b :: rest) (ha : s.log.append = some w)
    (hw : w.stage = .readBack ∨ w.stage = .retryReadBack) (h : recordStands w.seq bs = true) :
    readBackDone bs s = succeedAppend b s := by
  rw [readBackDone, ha, hq]
  dsimp only
  rcases hw with hw | hw <;> rw [hw] <;> exact if_pos h

/-- R86: the record is written once more, or the full area compacted first. -/
theorem readBackDone_retries (hq : s.log.queue = b :: rest) (ha : s.log.append = some w) (hw : w.stage = .readBack)
    (h : recordStands w.seq bs = false) :
    readBackDone bs s =
      if s.log.position = 512 then compactOrRefuse true b s else writeRecord .retryWrite b s := by
  rw [readBackDone, ha, hq]
  dsimp only
  rw [hw]
  exact if_neg (by rw [h]; exact Bool.false_ne_true)

/-- R86: the retry has failed as well. -/
theorem readBackDone_fails (hq : s.log.queue = b :: rest) (ha : s.log.append = some w) (hw : w.stage = .retryReadBack)
    (h : recordStands w.seq bs = false) : readBackDone bs s = failAppend b s := by
  rw [readBackDone, ha, hq]
  dsimp only
  rw [hw]
  exact if_neg (by rw [h]; exact Bool.false_ne_true)

end

/-- Settles O58. -/
theorem readBackDecidesTheAppend : Obligations.ReadBackDecidesTheAppend := by
  unfold Obligations.ReadBackDecidesTheAppend
  intro s b rest w a n hq ha he hfl
  refine ⟨fun body p addr hb hw hvalid hst ho hf hph hslot => ?found, fun hok hinvalid => ?notFound⟩
  case found =>
    subst hb
    rw [exec_readBackComplete hq ha hw hfl he,
      readBackDone_stands (by exact hq) (by exact ha) hw (recordStands_of_valid hvalid), succeedAppend_eq (by exact hq),
      answerAppend, openAnswered_opens (by exact ho) (by exact hst) (by cases p <;> exact hf),
      openSegment_eq (by exact hph) (by cases p <;> exact hslot) (by exact he)]
    cases p <;> rfl
  case notFound =>
    have hstands := recordStands_of_invalid hinvalid
    have hretries (hw : w.stage = .readBack) :=
      (exec_readBackComplete hq ha (.inl hw) hfl he).trans (congrArg Host.Outcome.next
        (readBackDone_retries (s := s.setFlash (s.flash.endTransfer .log)) hq ha hw hstands))
    have hfails (hw : w.stage = .retryReadBack) :=
      (exec_readBackComplete hq ha (.inr hw) hfl he).trans (congrArg Host.Outcome.next
        ((readBackDone_fails (s := s.setFlash (s.flash.endTransfer .log)) hq ha hw hstands).trans (failAppend_eq hq hok)))
    refine ⟨fun hw hp => ?_, fun hw hp hn => ?_, fun p hw hb hst ho hport => ?_, fun p f hw hb hst ho hport hf => ?_⟩
    · rw [hretries hw, if_neg (by exact Nat.ne_of_lt hp), writeRecord_eq _ _ rfl (by exact he)]
      rfl
    · rw [hretries hw, if_pos (by exact hp), compactOrRefuse_eq _ _ (by exact hn) rfl (by exact he), ← hp]
      rfl
    · subst hb
      rw [hfails hw, answerAppend, openAnswered_ending (p := p) false (by exact ho) (by cases p <;> exact hport) (by exact hst)]
      cases p <;> rfl
    · subst hb
      rw [hfails hw, answerAppend, openAnswered_failed (p := p) (f := f)
        ⟨by exact ho, by cases p <;> exact hport, by cases p <;> exact hf⟩ (by exact hst)]
      cases p <;> rfl

/-! ### A map area is written (O59) -/

section
variable {step : AreaStep}

theorem areaStepDone_compacting (hq : s.log.queue = b :: rest) (ha : s.log.append = some w)
    (hw : w.stage = .compacting step) (ok : Bool) : areaStepDone step ok s = compactionDone w b step ok s := by
  rw [areaStepDone, ha, hq]
  exact if_pos hw

theorem areaStepDone_init (ha : s.log.append = none) (hi : s.log.initStep = some step) (ok : Bool) :
    areaStepDone step ok s = initDone step ok s := by
  rw [areaStepDone, ha]
  exact if_pos hi

end

theorem newGeneration_of_some {generation : Word32} (h : s.log.generation = some generation) :
    s.log.newGeneration = generation + 1 := by
  rw [LogUnit.newGeneration, h]
  rfl

/-- R88: an area of a compaction is erased, and its header is written. -/
theorem compactionDone_erase (hs : s.flash.slotLog = .empty) (he : s.flash.erase = none) :
    compactionDone w b .erase true s =
      { s with
        log := { s.log with append := some { w with stage := .compacting .header } }
        flash :=
          { s.flash with
            slotLog := .pending (.program (areaBase s.log.current.other) (areaHeaderBytes s.log.newGeneration)) } } := by
  rw [compactionDone, if_pos rfl]
  dsimp only
  rw [place_of_idle _ (by exact hs) (by exact he)]
  rfl

/-- R88: the header of a compaction is written, and its BASE follows. -/
theorem compactionDone_header (hs : s.flash.slotLog = .empty) (he : s.flash.erase = none) :
    compactionDone w b .header true s =
      { s with
        log := { s.log with append := some { w with stage := .compacting .base } }
        flash :=
          { s.flash with
            slotLog :=
              .pending
                (.program (areaBase s.log.current.other + 128) (recordBytes s.log.nextSeq (.base s.log.summary))) } } := by
  rw [compactionDone, if_pos rfl]
  dsimp only
  rw [place_of_idle _ (by exact hs) (by exact he)]
  rfl

/-- R88: the BASE of a compaction is written, and the requested record follows in the area that is now current. -/
theorem compactionDone_base (hs : s.flash.slotLog = .empty) (he : s.flash.erase = none) :
    compactionDone w b .base true s =
      { s with
        log :=
          { s.log with
            area := some s.log.current.other
            generation := some s.log.newGeneration
            position := 2
            nextSeq := s.log.nextSeq + 1
            append :=
              some
                { stage := if w.retry = true then .retryWrite else .write, position := 2, seq := s.log.nextSeq + 1,
                  retry := false } }
        flash :=
          { s.flash with
            slotLog :=
              .pending (.program (areaBase s.log.current.other + 256) (recordBytes (s.log.nextSeq + 1) b)) } } := by
  rw [compactionDone, if_pos rfl]
  dsimp only
  rw [writeRecord_eq _ _ (by exact hs) (by exact he)]
  rfl

/-- R95: area 0 is erased, and its header is written. -/
theorem initDone_erase (hs : s.flash.slotLog = .empty) (he : s.flash.erase = none) :
    initDone .erase true s =
      { s with
        log := { s.log with initStep := some .header }
        flash := { s.flash with slotLog := .pending (.program 0x0FF0000 (areaHeaderBytes 1)) } } := by
  rw [initDone, if_pos rfl]
  dsimp only
  rw [place_of_idle _ (by exact hs) (by exact he)]
  rfl

theorem initDone_header (hs : s.flash.slotLog = .empty) (he : s.flash.erase = none) :
    initDone .header true s =
      { s with
        log := { s.log with initStep := some .base }
        flash :=
          { s.flash with slotLog := .pending (.program 0x0FF0080 (recordBytes 1 (.base LogSummary.initial))) } } := by
  rw [initDone, if_pos rfl]
  dsimp only
  rw [place_of_idle _ (by exact hs) (by exact he)]
  rfl

/-- R95, R97: a step of the initialisation fails with the Log Unit OK. -/
theorem initDone_failed {step : AreaStep} (hok : s.log.lock = .ok) :
    initDone step false s =
      { s with
        map := { s.map with entries := banksFrom 0 s.map.entries }
        log := { s.log with initStep := none, lock := .faulted }
        faults := { s.faults with logFault := true }
        image :=
          { s.image with
            serial := 0, state := .virgin, count := 0, limit := 0, targetValid := false, targetBitmap := 0,
            targetSerial := 0 }
        seq := { s.seq with phase := .trialStep, work := .notBegun } } := by
  have hfail : logFail (s.setLog { s.log with initStep := none }) =
      raiseFault .logFault (s.setLog { s.log with initStep := none, lock := .faulted }) := logFail_of_ok hok
  show enterPhase .trialStep (handOver LogSummary.initial (logFail _)) = _
  rw [hfail]
  rfl

/-- R18: the map of the initial summary has every bank A. -/
theorem banksFrom_zero (s : State) (hlen : s.map.entries.length = 255) {seg : Nat} (h : seg < 255) :
    entryOf (banksFrom 0 s.map.entries) seg = { s.entry seg with bank := .a } := by
  rw [entryOf_banksFrom 0 (by omega)]
  simp [State.entry]

/-- R89: a compaction fails with the Log Unit OK. -/
theorem compactionDone_failed {step : AreaStep} (hq : s.log.queue = b :: rest) (hok : s.log.lock = .ok) :
    compactionDone w b step false s =
      answerAppend b false
        { s with
          log := { s.log with queue := rest, append := none, lock := .faulted }
          faults := { s.faults with logFault := true } } := by
  show failAppend b s = _
  exact failAppend_eq hq hok

/-- Settles O59. -/
theorem mapAreaIsWrittenInOrder : Obligations.MapAreaIsWrittenInOrder := by
  unfold Obligations.MapAreaIsWrittenInOrder
  intro s
  refine ⟨fun b rest w p serial left hq ha hok hb hacc hst hport ho => ?compactionFails, fun ha => ?init,
    fun b rest w area generation hq ha harea hgen => ?compaction, fun x data run ha hi he ht hrun => ?initEnds⟩
  case compactionFails =>
    intro failed
    subst hb
    have hfails (x : State) (step : AreaStep) (hw : w.stage = .compacting step)
        (hx : x = { s with mem := x.mem, flash := x.flash }) :
        areaStepDone step false x = failed x.mem x.flash := by
      rw [hx, areaStepDone_compacting (by exact hq) (by exact ha) hw, compactionDone_failed (by exact hq) (by exact hok),
        answerAppend, confirmAnswered_failed (by exact hacc) (by exact hst) (by cases p <;> exact hport) (by exact ho)]
      cases p <;> rfl
    have hat (step : AreaStep) (hw : w.stage = .compacting step) : s.log.atAreaStep step = true := by
      rw [atAreaStep_of_compacting ha hq hw]
      exact decide_eq_true rfl
    refine ⟨fun e hw he hc hn hrun => ?_, fun x data run ht hrun => ⟨fun hw => ?_, fun hw => ?_⟩⟩
    · rw [exec_mapAreaEraseComplete _ he hc hn hrun (hat _ hw), reportOk, reportLeft, finishErase_eq hc]
      exact congrArg Host.Outcome.next (hfails _ .erase hw rfl)
    · rw [exec_areaHeaderProgramComplete _ ht hrun (hat _ hw)]
      exact congrArg Host.Outcome.next (hfails (finishProgram .log x data left s) .header hw rfl)
    · rw [exec_baseProgramComplete _ ht hrun (hat _ hw)]
      exact congrArg Host.Outcome.next (hfails (finishProgram .log x data left s) .base hw rfl)
  case init =>
    have hat (step : AreaStep) (hi : s.log.initStep = some step) : s.log.atAreaStep step = true := by
      rw [atAreaStep_of_init ha hi]
      exact decide_eq_true rfl
    refine ⟨fun e hi ht he hc hn hrun => ?_, fun x data run hi he ht hrun => ?_, fun left hok hlen => ?_⟩
    · rw [exec_mapAreaEraseComplete _ he hc hn hrun (hat _ hi), reportOk, reportLeft, finishErase_eq hc,
        areaStepDone_init (by exact ha) (by exact hi), initDone_erase rfl rfl]
      rfl
    · rw [exec_areaHeaderProgramComplete _ ht hrun (hat _ hi), reportOk, reportLeft,
        areaStepDone_init (by exact ha) (by exact hi), initDone_header rfl (by exact he)]
      rfl
    · refine ⟨banksFrom 0 s.map.entries, fun seg h => banksFrom_zero s hlen h, ?_, ?_⟩
      · exact (mapEntriesFrom_length _ _ _).trans hlen
      · intro failed
        have hfails (x : State) (step : AreaStep) (hi : s.log.initStep = some step)
            (hx : x = { s with mem := x.mem, flash := x.flash }) :
            areaStepDone step false x = failed x.mem x.flash := by
          rw [hx, areaStepDone_init (by exact ha) (by exact hi), initDone_failed (by exact hok)]
        refine ⟨fun e hi he hc hn hrun => ?_, fun x data run ht hrun => ⟨fun hi => ?_, fun hi => ?_⟩⟩
        · rw [exec_mapAreaEraseComplete _ he hc hn hrun (hat _ hi), reportOk, reportLeft, finishErase_eq hc]
          exact congrArg Host.Outcome.next (hfails _ .erase hi rfl)
        · rw [exec_areaHeaderProgramComplete _ ht hrun (hat _ hi)]
          exact congrArg Host.Outcome.next (hfails (finishProgram .log x data left s) .header hi rfl)
        · rw [exec_baseProgramComplete _ ht hrun (hat _ hi)]
          exact congrArg Host.Outcome.next (hfails (finishProgram .log x data left s) .base hi rfl)
  case compaction =>
    have hat (step : AreaStep) (hw : w.stage = .compacting step) : s.log.atAreaStep step = true := by
      rw [atAreaStep_of_compacting ha hq hw]
      exact decide_eq_true rfl
    have hcurrent : s.log.current = area := current_of_area harea
    have hgeneration : s.log.newGeneration = generation + 1 := newGeneration_of_some hgen
    refine ⟨fun e hw ht he hc hn hrun => ?_, fun x data run he ht hrun => ⟨fun hw => ?_, fun hw => ?_⟩⟩
    · rw [exec_mapAreaEraseComplete _ he hc hn hrun (hat _ hw), reportOk, reportLeft, finishErase_eq hc,
        areaStepDone_compacting (by exact hq) (by exact ha) hw, compactionDone_erase rfl rfl, hcurrent, hgeneration]
      rfl
    · rw [exec_areaHeaderProgramComplete _ ht hrun (hat _ hw), reportOk, reportLeft,
        areaStepDone_compacting (by exact hq) (by exact ha) hw, compactionDone_header rfl (by exact he)]
      rw [← hcurrent]
      rfl
    · rw [exec_baseProgramComplete _ ht hrun (hat _ hw), reportOk, reportLeft,
        areaStepDone_compacting (by exact hq) (by exact ha) hw, compactionDone_base rfl (by exact he)]
      rw [← hcurrent, ← hgeneration]
      rfl
  case initEnds =>
    have hat : s.log.atAreaStep .base = true := by
      rw [atAreaStep_of_init ha hi]
      rfl
    rw [exec_baseProgramComplete _ ht hrun hat, reportOk, reportLeft, areaStepDone_init (by exact ha) (by exact hi)]
    rfl

end

end Sys2Proof.Machine
end

section
/-!
PROOF of O60: a pending switch takes effect. What the switch itself does (`State.switched`), what its requester then does, and
the release of held transfers are stated apart.
-/

namespace Sys2Proof.Machine

section
variable {p : Port} {s : State} {sw : PendingSwitch}

/-- R17, R161: the map and the fault set as a pending switch leaves them. -/
def State.switched (s : State) (sw : PendingSwitch) : State :=
  { s with
    map := { entries := flipEntries sw s.map.entries, epoch := s.map.epoch + 1, pinned := 0, switch := none }
    faults := { s.faults with noValidImage := false, trialExpired := false } }

theorem exec_switch_commit (hp : s.map.pinned = 0) (hsw : s.map.switch = some sw) (hr : sw.requester = .commitEngine) :
    exec .switchTakesEffect s = .next (releaseHeld (commitApplied (mapBitmap s.map.entries) (s.switched sw))) := by
  have heffect : switchEffect s = releaseHeld (commitApplied (mapBitmap s.map.entries) (s.switched sw)) := by
    simp only [switchEffect, hsw, hr]
    rw [State.switched, ← hp]
    rfl
  exact (if_pos hp).trans (congrArg Host.Outcome.next heffect)

theorem exec_switch_rollback (hp : s.map.pinned = 0) (hsw : s.map.switch = some sw) (hr : sw.requester = .imageState) :
    exec .switchTakesEffect s = .next (releaseHeld (rollbackApplied (s.switched sw))) := by
  have heffect : switchEffect s = releaseHeld (rollbackApplied (s.switched sw)) := by
    simp only [switchEffect, hsw, hr]
    rw [State.switched, ← hp]
    rfl
  exact (if_pos hp).trans (congrArg Host.Outcome.next heffect)

/-! ### The entries after a switch -/

theorem entryOf_switched_commit (hlen : s.map.entries.length = 255) (hr : sw.requester = .commitEngine) {seg : Nat}
    (h : seg < 255) :
    entryOf (flipEntries sw s.map.entries) seg =
      if sw.flip.getLsbD seg then
        { bank := (s.entry seg).bank.other, phase := .stable, fresh := 0, damaged := false, toOpen := 0 }
      else s.entry seg := by
  rw [entryOf_flipEntries sw (by omega), hr]
  rfl

theorem entryOf_switched_rollback (hlen : s.map.entries.length = 255) (hr : sw.requester = .imageState) {seg : Nat}
    (h : seg < 255) :
    entryOf (flipEntries sw s.map.entries) seg =
      if sw.flip.getLsbD seg then { s.entry seg with bank := (s.entry seg).bank.other } else s.entry seg := by
  rw [entryOf_flipEntries sw (by omega), hr]
  rfl

/-! ### Held transfers -/

theorem firstChunk_of_none (h : (s.port p).transfer = none) : firstChunk p s = s := by
  rw [firstChunk, h]

theorem releaseHeld_of_none (h0 : s.hp0.transfer = none) (h1 : s.hp1.transfer = none) : releaseHeld s = s := by
  have h : firstChunk .hp0 s = s := firstChunk_of_none h0
  rw [releaseHeld, h, firstChunk_of_none (p := .hp1) h1]

/-- With no transfer at one port it is the other port's that is released. -/
theorem releaseHeld_of_port_none (h : (s.port p).transfer = none) : releaseHeld s = firstChunk (otherPort p) s := by
  rw [releaseHeld]
  cases p with
  | hp0 =>
    rw [firstChunk_of_none (p := .hp0) h]
    rfl
  | hp1 =>
    refine firstChunk_of_none (p := .hp1) ?_
    rw [show (firstChunk .hp0 s).port .hp1 = s.port .hp1 from (firstChunk_onlyHost .hp0 s).other]
    exact h

/-- R150: the next chunk of a transfer leaves the epoch it has pinned. -/
theorem formChunk_epoch {t : HostTransfer} (h : (s.port p).transfer = some t) :
    ∃ y, ((formChunk p s).port p).transfer = some y ∧ y.epoch = t.epoch := by
  simp only [formChunk, h]
  split
  · refine ⟨t, ?_, rfl⟩
    rw [← h]
    cases p <;> rfl
  · rw [updatePort, port_setPort]
    exact ⟨_, rfl, rfl⟩

/-- R14: a held transfer that is released pins the epoch once. -/
theorem firstChunk_pins_once {t : HostTransfer} (ht : (s.port p).transfer = some t) (he : t.epoch = none)
    (hend : t.ended = false) (hsw : s.map.switch = none) :
    (firstChunk p s).map.pinned = s.map.pinned + 1 ∧
      ∃ y, ((firstChunk p s).port p).transfer = some y ∧ y.epoch = some s.map.epoch := by
  rw [firstChunk_pins ht he hend hsw]
  refine ⟨by simp, ?_⟩
  exact formChunk_epoch (t := { t with epoch := some s.map.epoch }) (by rw [port_setPort])

/-! ### What the requester of a switch does -/

/-- R69, R70, R34: a commit is applied, and its owner answered. -/
theorem commitApplied_eq {sm : HeaderSummary} (before : Bitmap) (ho : s.session.owner = some p)
    (hsm : s.commit.summary = some sm) (hb : (s.port p).state = .commitBusy) :
    commitApplied before s =
      State.setPort
        { s with
          image := commitImage before sm.serial s.seq.straps.trialLim s.image
          session := Session.reset
          commit := CommitRecord.reset }
        p ((s.port p).answered .committed 0xFF) := by
  have hresult : (s.port p).result .committed 0xFF = (s.port p).answered .committed 0xFF := by
    have hst : ((s.port p).outcome .committed 0xFF).state = .commitBusy := hb
    rw [HostPort.result, HostPort.toReady, hst, outcome_of_not_refuses rfl (by decide)]
    rfl
  simp only [commitApplied, ho, hsm]
  rw [updatePort, ← hresult]
  cases p <;> rfl

/-- R110: before SERVING a rollback leaves IMAGE_OK as it was. -/
theorem rollbackImage_startUp (i : ImageUnit) :
    rollbackImage false i =
      { i with serial := i.targetSerial, state := .confirmed, count := 0, targetValid := false, rollback := none } := by
  simp [rollbackImage]

theorem rollbackImage_serving (i : ImageUnit) :
    rollbackImage true i =
      { i with
        serial := i.targetSerial, state := .confirmed, count := 0, targetValid := false, imageOk := true,
        rollback := none } := by
  simp [rollbackImage]

theorem rollbackApplied_trial (hs : s.seq.phase ≠ .serving) (hr : s.image.rollback = some (.sequencer, .trialExpired)) :
    rollbackApplied s = enterPhase .check (s.setImage (rollbackImage false s.image)) := by
  have hserving : s.serving = false := decide_eq_false hs
  simp only [rollbackApplied, hr, hserving]

theorem rollbackApplied_check (hs : s.seq.phase ≠ .serving) (hr : s.image.rollback = some (.sequencer, .startCheck)) :
    rollbackApplied s =
      startHeader .sequencer
        (State.setSeq (s.setImage (rollbackImage false s.image)) { s.seq with checkPass := .second }) := by
  have hserving : s.serving = false := decide_eq_false hs
  simp only [rollbackApplied, hr, hserving]
  rfl

/-- R106: a rollback that a port asked for frees the lock and is answered. -/
theorem rollbackApplied_port (hs : s.seq.phase = .serving) (hr : s.image.rollback = some (.port p, .requested))
    (hl : s.session.lock = .rollback) (hst : s.session.state = .nobody) (hb : (s.port p).state = .opBusy) :
    rollbackApplied s =
      State.setPort
        { s with
          image := rollbackImage true s.image
          session := { s.session with lock := .free } }
        p ((s.port p).answered .rolledBack 0xFF) := by
  have hserving : s.serving = true := decide_eq_true hs
  have hfree : freeRollback (s.setImage (rollbackImage true s.image)) =
      { s with image := rollbackImage true s.image, session := { s.session with lock := .free } } := if_pos hl
  have hresume : Session.resumeTimer { s.session with lock := .free } p = { s.session with lock := .free } :=
    if_neg fun h => by cases hst.symm.trans h.1
  simp only [rollbackApplied, hr, hserving]
  rw [hfree, giveResult_eq, hresume, result_done (by cases p <;> exact hb) rfl (by decide)]
  cases p <;> rfl

/-- Settles O60. -/
theorem switchTakesEffect : Obligations.SwitchTakesEffect := by
  unfold Obligations.SwitchTakesEffect
  intro s p flip ends hp hlen
  refine ⟨fun cause hsw hphase hroll h0 h1 => ?startUp, fun sm hsw ho hsm hb h0 h1 => ?commit,
    fun x hsw hphase hl hst hroll hb hnone hx hep hend => ?runtime⟩
  case startUp =>
    refine ⟨flipEntries { requester := .imageState, flip := flip, endsEpoch := ends } s.map.entries,
      fun seg h => entryOf_switched_rollback hlen rfl h, (flipEntries_length _ _).trans hlen, ?_⟩
    intro rolledBack
    rw [exec_switch_rollback hp hsw rfl]
    refine ⟨fun hc => ?_, fun hc hs he => ?_⟩
    · subst hc
      rw [rollbackApplied_trial (by exact hphase) (by exact hroll), rollbackImage_startUp,
        releaseHeld_of_none (by exact h0) (by exact h1)]
      rfl
    · subst hc
      rw [rollbackApplied_check (by exact hphase) (by exact hroll), rollbackImage_startUp,
        startHeader_eq _ (by exact hs) (by exact he), releaseHeld_of_none (by exact h0) (by exact h1)]
      rfl
  case commit =>
    refine ⟨flipEntries { requester := .commitEngine, flip := flip, endsEpoch := ends } s.map.entries,
      fun seg h => entryOf_switched_commit hlen rfl h, ?_⟩
    rw [exec_switch_commit hp hsw rfl, commitApplied_eq (p := p) _ (by exact ho) (by exact hsm) (by cases p <;> exact hb),
      releaseHeld_of_none (by cases p <;> exact h0) (by cases p <;> exact h1)]
    cases p <;> rfl
  case runtime =>
    have happlied := rollbackApplied_port (p := p)
      (s := s.switched { requester := .imageState, flip := flip, endsEpoch := ends }) hphase hroll hl hst
      (by cases p <;> exact hb)
    refine ⟨_, exec_switch_rollback hp hsw rfl, ?_⟩
    generalize hdone : rollbackApplied (s.switched { requester := .imageState, flip := flip, endsEpoch := ends }) = r
    rw [happlied] at hdone
    have hentries : r.map.entries = flipEntries { requester := .imageState, flip := flip, endsEpoch := ends } s.map.entries := by
      rw [← hdone, setPort_map]
      rfl
    have hepoch : r.map.epoch = s.map.epoch + 1 := by rw [← hdone, setPort_map]; rfl
    have hswitch : r.map.switch = none := by rw [← hdone, setPort_map]; rfl
    have hport : r.port p = (s.port p).answered .rolledBack 0xFF := by
      rw [← hdone, port_setPort]
      cases p <;> rfl
    have hwaiting : (r.port (otherPort p)).transfer = some x := by
      rw [← hdone, port_setPort_other]
      cases p <;> exact hx
    have himage : r.image = rollbackImage true s.image := by rw [← hdone, setPort_image]; rfl
    have hsession : r.session = { s.session with lock := .free } := by rw [← hdone, setPort_session]; rfl
    have hfaults : r.faults = { s.faults with noValidImage := false, trialExpired := false } := by
      rw [← hdone, setPort_faults]
      rfl
    have hmem : r.mem = s.mem := by rw [← hdone, setPort_mem]; rfl
    have hlog : r.log = s.log := by rw [← hdone, setPort_log]; rfl
    have hkept : (firstChunk (otherPort p) r).port p = r.port p := by
      cases p <;> exact (firstChunk_onlyHost _ r).other
    obtain ⟨hpinned, y, hy, hpins⟩ := firstChunk_pins_once hwaiting hep hend hswitch
    have hnoTransfer : (r.port p).transfer = none := by rw [hport]; exact hnone
    rw [releaseHeld_of_port_none hnoTransfer]
    refine ⟨fun seg h => ?_, ?_, ?_, ?_, ?_, ?_, ?_, hkept.trans hport, ⟨y, hy, by rw [hpins, hepoch]⟩, ?_, ?_⟩
    · rw [← entryOf_switched_rollback (sw := { requester := .imageState, flip := flip, endsEpoch := ends }) hlen rfl h,
        ← hentries]
      simp [State.entry]
    · simp [hepoch]
    · simp [hswitch]
    · rw [hpinned, ← hdone, setPort_map]
      rfl
    · simp [himage, rollbackImage_serving]
    · simp [hsession]
    · simp [hfaults]
    · simp [hmem]
    · simp [hlog]

end

end Sys2Proof.Machine
end

section
/-!
PROOF layer: the work of a start-up (chapter 7). What is asked of the Log Unit, of the Check Unit and of the Image State unit
for a start-up, and the operations that leave that work as it is: those of the hosts, of the sessions, of a commit and of the
Log Unit before it answers.
-/

namespace Sys2Proof.Machine

/-- R114 to R122: the work of the start-up, a claim for each kind of work. -/
structure StartWork (s : State) : Prop where
  reset : s.seq.inReset = true → s.seq.phase = .flashWait ∧ s.seq.wait = .none
  wait : s.seq.wait ≠ .none → s.seq.phase = .flashWait
  replay : s.log.replay.isSome = true → s.seq.phase = .scan
  init : s.log.initStep.isSome = true → s.seq.phase = .init
  trials : s.trialsAsked ≤ 1
  trial : s.trialsAsked = 1 → s.seq.phase = .trialStep ∧ s.seq.work = .running
  reader : s.startReader = true → s.seq.phase = .check ∧ s.seq.work = .running
  rollback : ∀ cause, s.image.rollback = some (.sequencer, cause) →
    s.trialsAsked = 0 ∧ s.startReader = false ∧ s.seq.work = .running ∧
      (cause = .trialExpired ∧ s.seq.phase = .trialStep ∨ cause = .startCheck ∧ s.seq.phase = .check)

theorem startWork_iff (s : State) : s.waitSound ∧ s.phaseWorkSound ↔ StartWork s := by
  have hroll : (s.startRollback = true →
      s.trialsAsked = 0 ∧ s.startReader = false ∧ s.seq.work = .running ∧
        (match s.image.rollback with
          | some (_, .trialExpired) => s.seq.phase = .trialStep
          | some (_, .startCheck) => s.seq.phase = .check
          | some (_, .requested) => False
          | none => False)) ↔
      ∀ cause, s.image.rollback = some (.sequencer, cause) →
        s.trialsAsked = 0 ∧ s.startReader = false ∧ s.seq.work = .running ∧
          (cause = .trialExpired ∧ s.seq.phase = .trialStep ∨ cause = .startCheck ∧ s.seq.phase = .check) := by
    unfold State.startRollback
    rcases s.image.rollback with _ | ⟨p | _, cause⟩
    · simp
    · simp
    · cases cause <;> simp
  constructor
  · rintro ⟨⟨hreset, hwait⟩, hreplay, hinit, htrials, htrial, hreader, hrollback⟩
    exact ⟨hreset, hwait, hreplay, hinit, htrials, htrial, hreader, hroll.mp hrollback⟩
  · rintro ⟨hreset, hwait, hreplay, hinit, htrials, htrial, hreader, hrollback⟩
    exact ⟨⟨hreset, hwait⟩, hreplay, hinit, htrials, htrial, hreader, hroll.mpr hrollback⟩

/-- What leaves the work of the start-up: the Sequencer stays, and no start-up work is added. -/
structure StartKept (s t : State) : Prop where
  seq : t.seq = s.seq
  replay : t.log.replay.isSome = true → s.log.replay.isSome = true
  init : t.log.initStep.isSome = true → s.log.initStep.isSome = true
  trials : t.trialsAsked ≤ s.trialsAsked
  reader : t.startReader = true → s.startReader = true
  rollback : ∀ cause, t.image.rollback = some (.sequencer, cause) → s.image.rollback = some (.sequencer, cause)

section
variable {s t u : State} {p : Port}

theorem StartKept.refl (s : State) : StartKept s s := ⟨rfl, id, id, Nat.le_refl _, id, fun _ => id⟩

theorem StartKept.trans (h : StartKept s t) (g : StartKept t u) : StartKept s u :=
  ⟨g.seq.trans h.seq, h.replay ∘ g.replay, h.init ∘ g.init, Nat.le_trans g.trials h.trials, h.reader ∘ g.reader,
    fun c => h.rollback c ∘ g.rollback c⟩

theorem State.startReader_congr (h : t.reader = s.reader) : t.startReader = s.startReader := by
  unfold State.startReader
  rw [h]

theorem State.trialsAsked_congr (h : t.log.queue = s.log.queue) : t.trialsAsked = s.trialsAsked := by
  unfold State.trialsAsked
  rw [h]

theorem State.startReader_none (h : s.reader = none) : s.startReader = false := by
  unfold State.startReader
  rw [h]

theorem State.startReader_some {r : Reader} (h : s.reader = some r) : s.startReader = decide (r.client = .sequencer) := by
  unfold State.startReader
  rw [h]

/-- An operation that leaves the Sequencer, the Log Unit, the Image State unit and the reader. -/
theorem StartKept.of_same (h : t.seq = s.seq ∧ t.log = s.log ∧ t.image = s.image ∧ t.reader = s.reader) :
    StartKept s t := by
  obtain ⟨hseq, hlog, himage, hreader⟩ := h
  exact ⟨hseq, fun h => hlog ▸ h, fun h => hlog ▸ h, Nat.le_of_eq (State.trialsAsked_congr (by rw [hlog])),
    fun h => State.startReader_congr hreader ▸ h, fun _ h => himage ▸ h⟩

/-- An operation that lets the Check Unit go. -/
theorem StartKept.of_free (hreader : t.reader = none) (h : t.seq = s.seq ∧ t.log = s.log ∧ t.image = s.image) :
    StartKept s t := by
  obtain ⟨hseq, hlog, himage⟩ := h
  exact ⟨hseq, fun h => hlog ▸ h, fun h => hlog ▸ h, Nat.le_of_eq (State.trialsAsked_congr (by rw [hlog])),
    fun h => absurd h (by simp [State.startReader_none hreader]), fun _ h => himage ▸ h⟩

/-- An operation that has the Check Unit work for a reader that is not the start-up's unless it was before. -/
theorem StartKept.of_reader {r : Reader} (hreader : t.reader = some r)
    (hr : r.client = .sequencer → s.startReader = true) (h : t.seq = s.seq ∧ t.log = s.log ∧ t.image = s.image) :
    StartKept s t := by
  obtain ⟨hseq, hlog, himage⟩ := h
  exact ⟨hseq, fun h => hlog ▸ h, fun h => hlog ▸ h, Nat.le_of_eq (State.trialsAsked_congr (by rw [hlog])),
    fun h => hr (by simpa [State.startReader_some hreader] using h), fun _ h => himage ▸ h⟩

/-- An update of the Log Unit that adds neither a replay, an initialisation nor a request. -/
theorem StartKept.of_log
    (hlog : t.log.replay = s.log.replay ∧ t.log.initStep = s.log.initStep ∧ t.log.queue = s.log.queue)
    (h : t.seq = s.seq ∧ t.image = s.image ∧ t.reader = s.reader) : StartKept s t := by
  obtain ⟨hreplay, hinit, hqueue⟩ := hlog
  obtain ⟨hseq, himage, hreader⟩ := h
  exact ⟨hseq, fun h => hreplay ▸ h, fun h => hinit ▸ h, Nat.le_of_eq (State.trialsAsked_congr hqueue),
    fun h => State.startReader_congr hreader ▸ h, fun _ h => himage ▸ h⟩

/-- An update of the Image State unit that starts no rollback of a start-up. -/
theorem setImage_startKept (s : State) (i : ImageUnit)
    (h : ∀ cause, i.rollback = some (.sequencer, cause) → s.image.rollback = some (.sequencer, cause)) :
    StartKept s (s.setImage i) := ⟨rfl, id, id, Nat.le_refl _, id, h⟩

theorem trialsAsked_askAppend (b : RecordBody) (s : State) :
    (askAppend b s).trialsAsked = s.trialsAsked + if b.isTrial then 1 else 0 := by
  show ((s.log.queue ++ [b]).filter RecordBody.isTrial).length = _
  rw [List.filter_append, List.length_append]
  cases hb : b.isTrial <;> simp [hb, State.trialsAsked]

theorem askAppend_startKept {b : RecordBody} (hb : b.isTrial = false) (s : State) : StartKept s (askAppend b s) :=
  ⟨rfl, id, id, by simp [trialsAsked_askAppend, hb], id, fun _ => id⟩

/-! ### What the hosts and the sessions do -/

theorem beginOpening_startKept (p : Port) (f : InFlight) (s : State) : StartKept s (beginOpening p f s) := by
  unfold beginOpening
  split
  · exact .of_same (by simp)
  · exact askAppend_startKept rfl s

theorem ownerErase_startKept (p : Port) (f : InFlight) (s : State) : StartKept s (ownerErase p f s) := by
  have hload : StartKept s (loadTimer s) := .of_same (by simp)
  cases f with
  | sectorErase a =>
    refine hload.trans ?_
    show StartKept _ (ownerSectorErase p a (loadTimer s))
    unfold ownerSectorErase
    dsimp only
    split
    · exact beginOpening_startKept p _ _
    · split <;> exact .of_same (by simp)
  | segmentErase a =>
    refine hload.trans ?_
    show StartKept _ (ownerSegmentErase p a (loadTimer s))
    unfold ownerSegmentErase
    dsimp only
    split
    · exact beginOpening_startKept p _ _
    · exact .of_same (by simp)
  | program a data => exact .refl s

theorem sessionErase_startKept (p : Port) (f : InFlight) (s : State) : StartKept s (sessionErase p f s) := by
  unfold sessionErase
  split
  · exact ownerErase_startKept p f s
  · cases s.session.lock with
    | free =>
      dsimp only
      split
      · exact StartKept.trans (.of_same (by simp)) (ownerErase_startKept p f _)
      · exact .of_same (by simp)
    | session => exact .of_same (by simp)
    | rollback => exact .of_same (by simp)

theorem decideAccept_startKept (p : Port) (s : State) : StartKept s (decideAccept p s) := by
  unfold decideAccept
  split
  · exact .of_same (by simp)
  · split
    · exact .of_same (by simp)
    · split
      · exact .of_same (by simp)
      · exact StartKept.trans
          (setImage_startKept s { s.image with state := .confirming, acceptance := some (p, s.image.serial) } fun _ => id)
          (askAppend_startKept rfl _)

/-- R104: the rollback that a port asks for is none of a start-up. -/
theorem decideRevert_startKept (p : Port) (s : State) : StartKept s (decideRevert p s) := by
  have hasked : StartKept s (s.setImage { s.image with rollback := some (.port p, .requested) }) :=
    setImage_startKept s _ (by simp)
  unfold decideRevert
  split
  · exact .of_same (by simp)
  · split
    · exact .of_same (by simp)
    · split
      · exact .of_same (by simp)
      · split
        · exact .of_same (by simp)
        · exact (hasked.trans (.of_same (by exact ⟨rfl, rfl, rfl, rfl⟩))).trans
            (askAppend_startKept (b := .rollback _ _ _) rfl _)

theorem otherProgram_startKept (p : Port) (a : LogicalAddr) (data : List Byte) (s : State) :
    StartKept s (otherProgram p a data s) := by
  unfold otherProgram
  split
  · exact decideAccept_startKept p s
  · split
    · exact decideRevert_startKept p s
    · split <;> exact .of_same (by simp)

theorem sessionProgram_startKept (p : Port) (a : LogicalAddr) (data : List Byte) (s : State) :
    StartKept s (sessionProgram p a data s) := by
  unfold sessionProgram
  split
  · exact .of_same (by simp)
  · exact otherProgram_startKept p a data s

theorem updatePort_startKept (p : Port) (f : HostPort → HostPort) (s : State) : StartKept s (updatePort p f s) :=
  .of_same (by simp)

theorem putOut_startKept (p : Port) (bytes : List Byte) (s : State) : StartKept s (putOut p bytes s) := .of_same (by simp)

theorem takeWrite_startKept {decideIt : State → State} (p : Port) (a : LogicalAddr) (n : Nat) (f : InFlight) (s : State)
    (hd : ∀ x, StartKept x (decideIt x)) : StartKept s (takeWrite p a n f decideIt s) := by
  have hwel := updatePort_startKept p (fun q => { q with wel := false }) s
  unfold takeWrite
  dsimp only
  split
  · exact hwel
  · split
    · exact hwel.trans (updatePort_startKept p _ _)
    · exact (hwel.trans (updatePort_startKept p _ _)).trans (hd _)

theorem takeReady_startKept (p : Port) (r : HostRequest) (s : State) : StartKept s (takeReady p r s) := by
  cases r with
  | pageProgram a data =>
    show StartKept s (takeProgram p a data s)
    unfold takeProgram
    split
    · exact .of_same (by simp)
    · exact takeWrite_startKept p _ _ _ s (sessionProgram_startKept p a data)
  | sectorErase a => exact takeWrite_startKept p _ _ _ s (sessionErase_startKept p _)
  | segmentErase a => exact takeWrite_startKept p _ _ _ s (sessionErase_startKept p _)
  | arrayRead a n => exact (.of_same (by simp) : StartKept s (takeArrayRead p a n s))
  | softReset => exact (.of_same (by simp) : StartKept s (takeSoftReset p s))
  | unknownCode code n => exact (.of_same (by simp) : StartKept s (putOnes p n s))
  | writeEnable =>
    exact updatePort_startKept p (fun q => { q with wel := true, refused := false, progFail := false, eraseFail := false }) s
  | writeDisable => exact updatePort_startKept p (fun q => { q with wel := false }) s
  | statusRead n => exact putOut_startKept p _ s
  | extendedStatusRead n => exact putOut_startKept p _ s
  | identRead n => exact putOut_startKept p _ s

theorem takeRequest_startKept (p : Port) (r : HostRequest) (s : State) : StartKept s (takeRequest p r s) := by
  unfold takeRequest
  split
  · exact takeReady_startKept p r s
  · exact .of_same (by simp)
  · exact .of_same (by simp)
  · exact .refl s
  · exact .refl s

theorem foldl_takeRequest_startKept (p : Port) : ∀ (rs : List HostRequest) (s : State),
    StartKept s (rs.foldl (fun x r => takeRequest p r x) s)
  | [], s => .refl s
  | r :: rs, s => (takeRequest_startKept p r s).trans (foldl_takeRequest_startKept p rs _)

theorem arrive_startKept (p : Port) (r : HostRequest) (s : State) : StartKept s (arrive p r s) := by
  unfold arrive
  split
  · exact .of_same (by simp)
  · split
    · split
      · exact .of_same (by simp)
      · exact .refl s
    · exact .refl s
  · exact takeRequest_startKept p r s
  · exact takeRequest_startKept p r s
  · exact takeRequest_startKept p r s

theorem takeHeld_startKept (p : Port) (clocks : Nat) (s : State) : StartKept s (takeHeld p clocks s) := by
  unfold takeHeld
  exact StartKept.trans (.of_same (by simp)) (foldl_takeRequest_startKept p _ _)

theorem hostChunkThen_startKept (p : Port) (x : ChunkEnd) (bytes : List Byte) (s : State) :
    StartKept s (hostChunkThen p x bytes s) := by
  have hdone : StartKept s (hostChunkDone p x.clocks bytes s) := by
    unfold hostChunkDone
    split
    · exact .refl s
    · split
      · exact StartKept.trans (.of_same (by simp)) (takeHeld_startKept p _ _)
      · exact .of_same (by simp)
  unfold hostChunkThen
  dsimp only
  split
  · exact hdone.trans (.of_same (by simp))
  · exact hdone

end

end Sys2Proof.Machine
end

section
/-!
PROOF layer: how the start-up goes on (chapter 7). A commit and the writing of a record leave its work; the answer to a record
and the result of a range end the work of a phase, and enter the next phase or begin its next work.
-/

namespace Sys2Proof.Machine

section
variable {s t u : State} {p : Port}

/-! ### A commit -/

theorem failCommit_startKept (code : Code) (seg : BitVec 8) (s : State) : StartKept s (failCommit code seg s) :=
  .of_free rfl (by simp)

theorem enterRecord_startKept (s : State) : StartKept s (enterRecord s) :=
  StartKept.trans (t := s.setCheck s.check none) (.of_free rfl ⟨rfl, rfl, rfl⟩)
    (.trans (t := (s.setCheck s.check none).setCommit
        { s.commit with
          stage := .record, cursor := none, newBitmap := some (mapBitmap s.map.entries ^^^ readySet s.map.entries) })
      (.of_same ⟨rfl, rfl, rfl, rfl⟩) (askAppend_startKept rfl _))

theorem commitVerify_startKept (start : Nat) (s : State) : StartKept s (commitVerify start s) := by
  unfold commitVerify
  split
  · next seg _ =>
    exact .of_reader (r := { client := .commitEngine, work := .descriptor seg }) (by simp [placeDescriptor])
      nofun (by simp)
  · exact enterRecord_startKept s

theorem fillFrom_startKept : ∀ (k seg : Nat) (s : State), StartKept s (fillFrom k seg s)
  | 0, _, s => StartKept.trans (t := s.setCommit { s.commit with stage := .verify, cursor := none }) (.of_same (by simp))
      (commitVerify_startKept 0 _)
  | k + 1, seg, s => by
    have hbegin : StartKept s (updateEntry seg MapEntry.beginFill s) := .of_same (by simp)
    unfold fillFrom
    split
    · split
      · exact hbegin.trans (fillFrom_startKept k _ _)
      · exact .of_same (by simp)
    · exact fillFrom_startKept k _ s

theorem commitHeader_startKept (sm : HeaderSummary) (s : State) : StartKept s (commitHeader sm s) := by
  have htaken : StartKept s ((s.setCheck s.check none).setCommit { s.commit with summary := some sm }) := .of_free rfl (by simp)
  unfold commitHeader
  dsimp only
  split
  · exact htaken.trans (failCommit_startKept _ _ _)
  · split
    · exact htaken.trans (failCommit_startKept _ _ _)
    · exact (htaken.trans (.of_same (by exact ⟨rfl, rfl, rfl, rfl⟩))).trans (fillFrom_startKept _ _ _)

theorem startHeader_reader (client : CheckClient) (s : State) :
    (startHeader client s).reader = some { client := client, work := .header HeaderCapture.empty } := by
  simp [startHeader]

theorem startCommitEngine_startKept (p : Port) (s : State) : StartKept s (startCommitEngine p s) := by
  unfold startCommitEngine
  dsimp only
  split
  · exact .of_free rfl (by simp)
  · exact .of_reader (startHeader_reader _ _) nofun (by simp)

theorem ownerProgramDone_startKept (p : Port) (ok : Bool) (s : State) : StartKept s (ownerProgramDone p ok s) := by
  unfold ownerProgramDone
  split
  · exact .refl s
  · split
    · exact .refl s
    · exact .refl s
    · split
      · exact .of_same (by simp)
      · split
        · split
          · exact startCommitEngine_startKept p s
          · exact .of_same (by simp)
        · exact .of_same (by simp)

theorem copyProgramDone_startKept (ok : Bool) (s : State) : StartKept s (copyProgramDone ok s) := by
  unfold copyProgramDone
  split
  · exact .refl s
  · split
    · split
      · exact .of_same (by simp)
      · split
        · exact .of_same (by simp)
        · exact StartKept.trans
            (t := (updateEntry _ MapEntry.endFill s).setCommit { s.commit with page := 0, buffer := none })
            (.of_same (by simp)) (fillFrom_startKept _ _ _)
    · exact StartKept.trans (t := s.setCommit { s.commit with buffer := none }) (.of_same (by simp))
        (failCommit_startKept _ _ _)

theorem chunkTaken_startKept {r : Reader} (bytes : List Byte) (h : s.reader = some r) :
    StartKept s (chunkTaken r bytes s) := by
  have hclient : (captureChunk s.check.count bytes r).client = r.client := by
    unfold captureChunk
    split <;> rfl
  have hr : (captureChunk s.check.count bytes r).client = .sequencer → s.startReader = true := fun hc => by
    simp [State.startReader_some h, ← hclient, hc]
  unfold chunkTaken
  dsimp only
  split
  · exact .of_reader (by simp) hr (by simp)
  · exact .of_reader rfl hr ⟨rfl, rfl, rfl⟩

theorem startSegmentRange_startKept {r : Reader} (seg length : Nat) (checkValue : Word32) (h : s.reader = some r) :
    StartKept s (startSegmentRange r.client seg length checkValue s) :=
  .of_reader (r := { client := r.client, work := .segment seg checkValue }) (by simp [startSegmentRange])
    (fun hc => by simp [State.startReader_some h, show r.client = .sequencer from hc]) (by simp)

/-! ### The Log Unit up to its answer -/

theorem logFail_startKept (s : State) : StartKept s (logFail s) := by
  refine .of_log ⟨by simp, by simp, ?_⟩ (by simp)
  unfold logFail
  split <;> rfl

theorem writeRecord_startKept (stage : AppendStage) (b : RecordBody) (s : State) :
    StartKept s (writeRecord stage b s) := .of_log (by simp [writeRecord]) (by simp)

/-- The request at the head of the queue has been taken from it. -/
theorem StartKept.popped {b : RecordBody} {rest : List RecordBody} (hq : s.log.queue = b :: rest)
    (h : StartKept s t) (ht : t.log.queue = s.log.queue) :
    StartKept s (popAppend t) ∧ (b.isTrial = true → (popAppend t).trialsAsked < s.trialsAsked) := by
  have hpop : (popAppend t).trialsAsked = (rest.filter RecordBody.isTrial).length := by
    show (t.log.queue.tail.filter RecordBody.isTrial).length = _
    rw [ht, hq]
    rfl
  have hs : s.trialsAsked = (rest.filter RecordBody.isTrial).length + if b.isTrial then 1 else 0 := by
    show (s.log.queue.filter RecordBody.isTrial).length = _
    rw [hq]
    cases hb : b.isTrial <;> simp [hb]
  refine ⟨h.trans ⟨rfl, id, id, ?_, id, fun _ => id⟩, fun hb => ?_⟩
  · rw [hpop, State.trialsAsked_congr ht, hs]
    omega
  · rw [hpop, hs, hb]
    simp

theorem openAnswered_startKept (ok : Bool) (s : State) : StartKept s (openAnswered ok s) := by
  have hopen : StartKept s
      (if ok then (s.setSession { s.session with openLogged := true }).setImage { s.image with targetValid := false }
        else s) := by
    split
    · exact StartKept.trans (t := s.setSession { s.session with openLogged := true }) (.of_same ⟨rfl, rfl, rfl, rfl⟩)
        (setImage_startKept _ _ fun _ => id)
    · exact .refl s
  unfold openAnswered
  dsimp only
  split
  · exact hopen
  · split
    · exact hopen.trans (.of_same (by simp))
    · split
      · exact hopen
      · split
        · next hok => exact (by rw [if_pos hok] at hopen; exact hopen : StartKept s _).trans (.of_same (by simp))
        · next hok => exact .of_same (by simp)

theorem giveResult_startKept (p : Port) (code : Code) (seg : BitVec 8) (s : State) :
    StartKept s (giveResult p code seg s) := .of_same (by simp)

theorem confirmAnswered_startKept (ok : Bool) (s : State) : StartKept s (confirmAnswered ok s) := by
  have hanswer (i : ImageUnit) (hi : i.rollback = s.image.rollback) (q : Port) (code : Code) :
      StartKept s (giveResult q code 0xFF (s.setImage i)) :=
    (setImage_startKept s i fun _ h => hi ▸ h).trans (giveResult_startKept _ _ _ _)
  unfold confirmAnswered
  split
  · exact .refl s
  · split
    · split <;> exact hanswer _ (by rfl) _ _
    · exact hanswer _ (by rfl) _ _

theorem commitApplied_startKept (before : Bitmap) (s : State) : StartKept s (commitApplied before s) := by
  have himage (i : ImageUnit) (hi : i.rollback = s.image.rollback) :
      StartKept s (((s.setImage i).setSession Session.reset).setCommit CommitRecord.reset) :=
    StartKept.trans (setImage_startKept s i fun _ h => hi ▸ h) (.of_same ⟨rfl, rfl, rfl, rfl⟩)
  unfold commitApplied
  dsimp only
  split
  · exact (himage _ (by rfl)).trans (updatePort_startKept _ _ _)
  · exact himage _ (by rfl)

end

end Sys2Proof.Machine
end

section
/-!
PROOF of O20 (StartUpStaysSound), first part: every command but PART_RESET and SERVING keeps the work of the start-up sound and
neither enters nor leaves SERVING (chapter 7).
-/

namespace Sys2Proof.Machine

/-- The start-up has no work asked for and waits for nothing. -/
structure StartIdle (s : State) : Prop where
  inReset : s.seq.inReset = false
  wait : s.seq.wait = .none
  replay : s.log.replay = none
  init : s.log.initStep = none
  trials : s.trialsAsked = 0
  reader : s.startReader = false
  rollback : ∀ cause, s.image.rollback ≠ some (.sequencer, cause)

/-- The start-up goes on: sound work stays sound, and SERVING is neither entered nor left. -/
def GoesOn (s t : State) : Prop := StartWork s → StartWork t ∧ (t.seq.phase = .serving ↔ s.seq.phase = .serving)

section
variable {s t u : State}

theorem GoesOn.refl (s : State) : GoesOn s s := fun hs => ⟨hs, .rfl⟩

theorem GoesOn.trans (h : GoesOn s t) (g : GoesOn t u) : GoesOn s u := fun hs =>
  ⟨(g (h hs).1).1, (g (h hs).1).2.trans (h hs).2⟩

theorem StartKept.goesOn (h : StartKept s t) : GoesOn s t := by
  intro hs
  have htrials := h.trials
  have hle := hs.trials
  refine ⟨⟨?_, ?_, ?_, ?_, Nat.le_trans htrials hle, ?_, ?_, fun cause hc => ?_⟩, by rw [h.seq]⟩
  · rw [h.seq]
    exact hs.reset
  · rw [h.seq]
    exact hs.wait
  · rw [h.seq]
    exact hs.replay ∘ h.replay
  · rw [h.seq]
    exact hs.init ∘ h.init
  · rw [h.seq]
    exact fun h1 => hs.trial (by omega)
  · rw [h.seq]
    exact hs.reader ∘ h.reader
  · obtain ⟨h0, hreader, hrest⟩ := hs.rollback cause (h.rollback cause hc)
    rw [h.seq]
    exact ⟨by omega, Bool.eq_false_iff.mpr fun hr => Bool.eq_false_iff.mp hreader (h.reader hr), hrest⟩

/-! ### The work that a phase rules out -/

theorem StartWork.replay_none (hs : StartWork s) (h : s.seq.phase ≠ .scan) : s.log.replay = none :=
  Option.not_isSome_iff_eq_none.mp fun hr => h (hs.replay hr)

theorem StartWork.init_none (hs : StartWork s) (h : s.seq.phase ≠ .init) : s.log.initStep = none :=
  Option.not_isSome_iff_eq_none.mp fun hr => h (hs.init hr)

theorem StartWork.trials_zero (hs : StartWork s) (h : s.seq.phase ≠ .trialStep ∨ s.seq.work ≠ .running) :
    s.trialsAsked = 0 := by
  have hle := hs.trials
  have hne : s.trialsAsked ≠ 1 := fun h1 => h.elim (fun g => g (hs.trial h1).1) (fun g => g (hs.trial h1).2)
  omega

theorem StartWork.reader_false (hs : StartWork s) (h : s.seq.phase ≠ .check ∨ s.seq.work ≠ .running) :
    s.startReader = false :=
  Bool.eq_false_iff.mpr fun hr => h.elim (fun g => g (hs.reader hr).1) (fun g => g (hs.reader hr).2)

theorem StartWork.no_rollback (hs : StartWork s)
    (h : s.seq.work ≠ .running ∨ s.seq.phase ≠ .trialStep ∧ s.seq.phase ≠ .check) (cause : RollbackCause) :
    s.image.rollback ≠ some (.sequencer, cause) := fun hc => by
  obtain ⟨-, -, hw, hphase⟩ := hs.rollback cause hc
  rcases h with h | ⟨ht, hk⟩
  · exact h hw
  · exact hphase.elim (fun g => ht g.2) (fun g => hk g.2)

theorem StartWork.not_inReset (hs : StartWork s) (h : s.seq.phase ≠ .flashWait) : s.seq.inReset = false :=
  Bool.eq_false_iff.mpr fun hr => h (hs.reset hr).1

theorem StartWork.wait_none (hs : StartWork s) (h : s.seq.phase ≠ .flashWait) : s.seq.wait = .none :=
  Decidable.byContradiction fun hw => h (hs.wait hw)

/-- R119 to R121, R125: in a phase from the trial step on whose work is not running there is no work. -/
theorem StartWork.idle (hs : StartWork s) (hw : s.seq.work ≠ .running)
    (hp : s.seq.phase = .trialStep ∨ s.seq.phase = .check) : StartIdle s := by
  have hne : s.seq.phase ≠ .flashWait ∧ s.seq.phase ≠ .scan ∧ s.seq.phase ≠ .init := by
    rcases hp with h | h <;> simp [h]
  obtain ⟨hf, hscan, hinit⟩ := hne
  exact ⟨hs.not_inReset hf, hs.wait_none hf, hs.replay_none hscan, hs.init_none hinit, hs.trials_zero (.inr hw),
    hs.reader_false (.inr hw), hs.no_rollback (.inl hw)⟩

/-! ### The work begun from an idle start-up -/

theorem StartIdle.work (h : StartIdle s) : StartWork s :=
  ⟨by simp [h.inReset], by simp [h.wait], by simp [h.replay], by simp [h.init], by simp [h.trials], by simp [h.trials],
    by simp [h.reader], fun cause hc => absurd hc (h.rollback cause)⟩

theorem StartIdle.congr (t : State) (h : StartIdle s) (hreset : t.seq.inReset = s.seq.inReset)
    (hwait : t.seq.wait = s.seq.wait) (hlog : t.log = s.log) (hreader : t.reader = s.reader)
    (hrollback : t.image.rollback = s.image.rollback) : StartIdle t :=
  ⟨hreset.trans h.inReset, hwait.trans h.wait, hlog ▸ h.replay, hlog ▸ h.init,
    (State.trialsAsked_congr (by rw [hlog])).trans h.trials, (State.startReader_congr hreader).trans h.reader,
    fun cause => hrollback ▸ h.rollback cause⟩

theorem StartIdle.enters (h : StartIdle s) (ph : StartPhase) : StartWork (enterPhase ph s) :=
  (StartIdle.congr (enterPhase ph s) h rfl rfl rfl rfl rfl).work

theorem StartIdle.raises (h : StartIdle s) (m : FaultMember) : StartIdle (raiseFault m s) :=
  .congr _ h rfl rfl rfl rfl rfl

/-- R109, R120: a TRIAL record is asked for in the trial step. -/
theorem StartIdle.askTrial (h : StartIdle s) (hp : s.seq.phase = .trialStep) (hw : s.seq.work = .running)
    (count : Fin 4) : StartWork (askAppend (.trial count) s) := by
  have h1 : (askAppend (.trial count) s).trialsAsked = 1 := by simp [trialsAsked_askAppend, h.trials, RecordBody.isTrial]
  have hs := h.work
  exact ⟨hs.reset, hs.wait, hs.replay, hs.init, Nat.le_of_eq h1, fun _ => ⟨hp, hw⟩, hs.reader,
    fun cause hc => absurd hc (h.rollback cause)⟩

/-- R110, R122: a rollback of the trial step or of the check is asked for in its phase. -/
theorem StartIdle.askRollback (h : StartIdle s) (hw : s.seq.work = .running) {cause : RollbackCause}
    (hp : cause = .trialExpired ∧ s.seq.phase = .trialStep ∨ cause = .startCheck ∧ s.seq.phase = .check) :
    StartWork (askStartRollback cause s) := by
  have h0 : (askStartRollback cause s).trialsAsked = 0 :=
    (trialsAsked_askAppend _ _).trans h.trials
  have hs := h.work
  refine ⟨hs.reset, hs.wait, hs.replay, hs.init, by simp [h0], by simp [h0], hs.reader, fun c hc => ?_⟩
  have hcause : c = cause := by
    have hc : some (RollbackRequester.sequencer, cause) = some (.sequencer, c) := hc
    simpa using hc.symm
  exact ⟨h0, h.reader, hw, hcause ▸ hp⟩

/-- R121, R122: a check begins with the header. -/
theorem StartIdle.checkBegins (h : StartIdle s) (hp : s.seq.phase = .check) (hw : s.seq.work = .running) :
    StartWork (startHeader .sequencer s) := by
  have hs := h.work
  have h0 : (startHeader .sequencer s).trialsAsked = 0 := (State.trialsAsked_congr (by simp)).trans h.trials
  refine ⟨by simpa using hs.reset, by simpa using hs.wait, by simpa using hs.replay, by simpa using hs.init, by simp [h0],
    by simp [h0], fun _ => by simp [hp, hw], fun cause hc => absurd (by simpa using hc) (h.rollback cause)⟩

/-! ### The start-up check -/

theorem endCheck_idle (hs : StartWork s) (hr : s.startReader = true) (result : CheckResult) :
    StartIdle (endCheck result s) ∧ (endCheck result s).seq.phase = .check ∧ (endCheck result s).seq.work = .running := by
  obtain ⟨hp, hw⟩ := hs.reader hr
  have hf : s.seq.phase ≠ .flashWait := by simp [hp]
  have h0 : s.trialsAsked = 0 := hs.trials_zero (.inl (by simp [hp]))
  have hroll (cause) : s.image.rollback ≠ some (.sequencer, cause) := fun hc => by
    simp [(hs.rollback cause hc).2.1] at hr
  exact ⟨⟨hs.not_inReset hf, hs.wait_none hf, hs.replay_none (by simp [hp]), hs.init_none (by simp [hp]), h0, rfl, hroll⟩,
    hp, hw⟩

theorem checkPassed_goesOn (hr : s.startReader = true) : GoesOn s (checkPassed s) := fun hs => by
  obtain ⟨hidle, -, -⟩ := endCheck_idle hs hr .passed
  exact ⟨(StartIdle.congr (checkPassed s) hidle rfl rfl rfl rfl rfl).work, .rfl⟩

theorem noValidImage_work (h : StartIdle s) : StartWork (noValidImage s) :=
  (StartIdle.congr (noValidImage s) h rfl rfl rfl rfl rfl).work

theorem checkFailed_goesOn (hr : s.startReader = true) : GoesOn s (checkFailed s) := fun hs => by
  obtain ⟨hidle, hp, hw⟩ := endCheck_idle hs hr .failed
  refine ⟨?_, by simp⟩
  unfold checkFailed
  dsimp only
  split
  · exact hidle.askRollback hw (.inr ⟨rfl, hp⟩)
  · exact noValidImage_work hidle

theorem startVerify_goesOn (start : Nat) (hr : s.startReader = true) : GoesOn s (startVerify start s) := by
  unfold startVerify
  split
  · next seg _ =>
    exact (StartKept.of_reader (r := { client := .sequencer, work := .descriptor seg }) (by simp [placeDescriptor])
      (fun _ => hr) (by simp)).goesOn
  · exact checkPassed_goesOn hr

theorem startHeaderTaken_goesOn (sm : HeaderSummary) (hr : s.startReader = true) : GoesOn s (startHeaderTaken sm s) := by
  have hsummary : GoesOn s (s.setSeq { s.seq with summary := some sm }) := fun hs =>
    ⟨⟨hs.reset, hs.wait, hs.replay, hs.init, hs.trials, hs.trial, hs.reader, hs.rollback⟩, .rfl⟩
  unfold startHeaderTaken
  dsimp only
  split
  · exact hsummary.trans (startVerify_goesOn 0 hr)
  · exact hsummary.trans (checkFailed_goesOn hr)

theorem rangeResult_goesOn {r : Reader} (crc : Word32) (h : s.reader = some r) : GoesOn s (rangeResult r crc s) := by
  have hr (hc : r.client = .sequencer) : s.startReader = true := by simp [State.startReader_some h, hc]
  unfold rangeResult
  split
  · split
    · exact (commitHeader_startKept _ s).goesOn
    · exact startHeaderTaken_goesOn _ (hr ‹_›)
  · split
    · split
      · exact (commitVerify_startKept _ s).goesOn
      · exact (failCommit_startKept _ _ s).goesOn
    · split
      · exact startVerify_goesOn _ (hr ‹_›)
      · exact checkFailed_goesOn (hr ‹_›)
  · exact .refl s

/-! ### A switch and the answer to a record -/

/-- R106, R110, R122: after a rollback the trial step ends, or the second check begins. -/
theorem rollbackApplied_goesOn (s : State) : GoesOn s (rollbackApplied s) := fun hs => by
  have himage : StartKept s (s.setImage (rollbackImage s.serving s.image)) := setImage_startKept s _ nofun
  have hidle (cause : RollbackCause) (hc : s.image.rollback = some (.sequencer, cause)) :
      StartIdle (s.setImage (rollbackImage s.serving s.image)) ∧ s.seq.work = .running ∧
        (cause = .trialExpired ∧ s.seq.phase = .trialStep ∨ cause = .startCheck ∧ s.seq.phase = .check) := by
    obtain ⟨h0, hreader, hw, hp⟩ := hs.rollback cause hc
    have hne : s.seq.phase ≠ .flashWait ∧ s.seq.phase ≠ .scan ∧ s.seq.phase ≠ .init := by
      rcases hp with h | h <;> simp [h.2]
    obtain ⟨hf, hscan, hinit⟩ := hne
    exact ⟨⟨hs.not_inReset hf, hs.wait_none hf, hs.replay_none hscan, hs.init_none hinit, h0, hreader, nofun⟩, hw, hp⟩
  unfold rollbackApplied
  dsimp only
  split
  · exact himage.goesOn hs
  · exact (himage.trans (.of_same (by simp))).goesOn hs
  · exact himage.goesOn hs
  · next hc =>
    obtain ⟨hi, hw, hp⟩ := hidle _ hc
    have hp : s.seq.phase = .trialStep := by simpa using hp
    exact ⟨hi.enters .check, by simp [enterPhase, hp]⟩
  · next hc =>
    obtain ⟨hi, hw, hp⟩ := hidle _ hc
    have hp : s.seq.phase = .check := by simpa using hp
    exact ⟨StartIdle.checkBegins (StartIdle.congr _ hi rfl rfl rfl rfl rfl) hp hw, by simp⟩

theorem releaseHeld_startKept (s : State) : StartKept s (releaseHeld s) := .of_same (by simp)

theorem switchEffect_goesOn (s : State) : GoesOn s (switchEffect s) := by
  unfold switchEffect
  split
  · exact .refl s
  · next sw _ =>
    dsimp only
    have hflip : StartKept s
        { s with
          map := { s.map with entries := flipEntries sw s.map.entries, epoch := s.map.epoch + 1, switch := none }
          faults := s.faults.afterSwitch } := .of_same ⟨rfl, rfl, rfl, rfl⟩
    refine GoesOn.trans ?_ (releaseHeld_startKept _).goesOn
    split
    · exact (hflip.trans (commitApplied_startKept _ _)).goesOn
    · exact hflip.goesOn.trans (rollbackApplied_goesOn _)

theorem requestSwitch_goesOn (r : SwitchRequester) (flip : Bitmap) (s : State) : GoesOn s (requestSwitch r flip s) := by
  have hasked : StartKept s
      { s with map := { s.map with switch := some { requester := r, flip := flip, endsEpoch := s.map.epoch } } } :=
    .of_same ⟨rfl, rfl, rfl, rfl⟩
  unfold requestSwitch
  dsimp only
  split
  · exact hasked.goesOn.trans (switchEffect_goesOn _)
  · exact hasked.goesOn

theorem commitAnswered_goesOn (ok : Bool) (s : State) : GoesOn s (commitAnswered ok s) := by
  unfold commitAnswered
  split
  · have hstage : StartKept s (s.setCommit { s.commit with stage := .switch }) := .of_same ⟨rfl, rfl, rfl, rfl⟩
    exact hstage.goesOn.trans (requestSwitch_goesOn _ _ _)
  · exact (failCommit_startKept _ _ s).goesOn

/-- R110, R122: a rollback of a start-up that fails ends the trial step, or the check. -/
theorem rollbackAnswered_goesOn (ok : Bool) (s : State) : GoesOn s (rollbackAnswered ok s) := fun hs => by
  unfold rollbackAnswered
  split
  · exact ⟨hs, .rfl⟩
  · next who cause hc =>
    split
    · exact requestSwitch_goesOn _ _ s hs
    · have himage : StartKept s (s.setImage { s.image with rollback := none }) := setImage_startKept s _ nofun
      dsimp only
      split
      · exact (himage.trans (.of_same (by simp))).goesOn hs
      · obtain ⟨h0, hreader, hw, hp⟩ := hs.rollback cause hc
        have hne : s.seq.phase ≠ .flashWait ∧ s.seq.phase ≠ .scan ∧ s.seq.phase ≠ .init := by
          rcases hp with h | h <;> simp [h.2]
        obtain ⟨hf, hscan, hinit⟩ := hne
        have hi : StartIdle (s.setImage { s.image with rollback := none }) :=
          ⟨hs.not_inReset hf, hs.wait_none hf, hs.replay_none hscan, hs.init_none hinit, h0, hreader, nofun⟩
        split
        · have hp : s.seq.phase = .trialStep := by simpa using hp
          exact ⟨StartIdle.enters (hi.raises .trialExpired) .check, by simp [enterPhase, hp]⟩
        · exact ⟨noValidImage_work hi, .rfl⟩
        · exact himage.goesOn hs

/-- R109: the answer to the TRIAL record ends the trial step. -/
theorem trialAnswered_goesOn {count : Fin 4} (ok : Bool) (h : StartKept s t) (hlt : t.trialsAsked < s.trialsAsked) :
    GoesOn s (trialAnswered count ok t) := fun hs => by
  have hle := hs.trials
  have h1 : s.trialsAsked = 1 := by omega
  obtain ⟨hp, hw⟩ := hs.trial h1
  have ht := (h.goesOn hs).1
  have hpt : t.seq.phase = .trialStep := by rw [h.seq, hp]
  have hroll (cause) : t.image.rollback ≠ some (.sequencer, cause) := fun hc => by
    have := (hs.rollback cause (h.rollback cause hc)).1
    omega
  have hi : StartIdle t :=
    ⟨ht.not_inReset (by simp [hpt]), ht.wait_none (by simp [hpt]), ht.replay_none (by simp [hpt]),
      ht.init_none (by simp [hpt]), by omega, ht.reader_false (.inl (by simp [hpt])), hroll⟩
  refine ⟨?_, by simp [trialAnswered, enterPhase, hp]⟩
  unfold trialAnswered
  refine StartIdle.enters ?_ .check
  split
  · exact StartIdle.congr _ hi rfl rfl rfl rfl rfl
  · exact hi

theorem answerAppend_goesOn {b : RecordBody} (ok : Bool)
    (h : StartKept s t ∧ (b.isTrial = true → t.trialsAsked < s.trialsAsked)) : GoesOn s (answerAppend b ok t) := by
  obtain ⟨hkept, htrial⟩ := h
  cases b with
  | base sm => exact hkept.goesOn
  | opened => exact (hkept.trans (openAnswered_startKept ok t)).goesOn
  | commit bm serial crc limit => exact hkept.goesOn.trans (commitAnswered_goesOn ok t)
  | trial count => exact trialAnswered_goesOn ok hkept (htrial rfl)
  | confirm serial => exact (hkept.trans (confirmAnswered_startKept ok t)).goesOn
  | rollback bm serial cause => exact hkept.goesOn.trans (rollbackAnswered_goesOn ok t)

end

end Sys2Proof.Machine
end

section
/-!
PROOF of O20 (StartUpStaysSound), second part: the Log Unit, the start-up commands, and every command.
-/

namespace Sys2Proof.Machine

section
variable {s t u : State} {b : RecordBody} {rest : List RecordBody}

/-! ### The appends -/

theorem refuseAppend_goesOn (hq : s.log.queue = b :: rest) : GoesOn s (refuseAppend b s) :=
  answerAppend_goesOn false ((StartKept.refl s).popped hq rfl)

theorem logFail_queue (s : State) : (logFail s).log.queue = s.log.queue := by
  unfold logFail
  split <;> rfl

theorem failAppend_goesOn (hq : s.log.queue = b :: rest) : GoesOn s (failAppend b s) :=
  answerAppend_goesOn false ((logFail_startKept s).popped hq (logFail_queue s))

theorem succeedAppend_goesOn (hq : s.log.queue = b :: rest) : GoesOn s (succeedAppend b s) := by
  obtain ⟨hkept, htrial⟩ := (StartKept.refl s).popped hq rfl
  exact answerAppend_goesOn true ⟨hkept.trans (.of_log ⟨rfl, rfl, rfl⟩ ⟨rfl, rfl, rfl⟩), htrial⟩

theorem compactOrRefuse_goesOn (retry : Bool) (hq : s.log.queue = b :: rest) :
    GoesOn s (compactOrRefuse retry b s) := by
  unfold compactOrRefuse
  split
  · exact failAppend_goesOn hq
  · exact (StartKept.of_log (by simp) (by simp)).goesOn

theorem startAppend_goesOn (hq : s.log.queue = b :: rest) : GoesOn s (startAppend b s) := by
  unfold startAppend
  split
  · exact refuseAppend_goesOn hq
  · split
    · exact compactOrRefuse_goesOn false hq
    · split
      · exact failAppend_goesOn hq
      · exact (writeRecord_startKept _ b s).goesOn

theorem recordDone_goesOn (ok : Bool) (s : State) : GoesOn s (recordDone ok s) := by
  unfold recordDone
  split
  · next w b rest _ hq =>
    have hpos : StartKept s (s.setLog { s.log with position := s.log.position + 1 }) := .of_log ⟨rfl, rfl, rfl⟩ ⟨rfl, rfl, rfl⟩
    dsimp only
    split
    · split
      · exact hpos.goesOn.trans (succeedAppend_goesOn hq)
      · exact (StartKept.of_log (by simp) (by simp)).goesOn
    · split
      · exact hpos.goesOn.trans (succeedAppend_goesOn hq)
      · exact (StartKept.of_log (by simp) (by simp)).goesOn
    all_goals exact .refl s
  · exact .refl s

theorem readBackDone_goesOn (bs : List Byte) (s : State) : GoesOn s (readBackDone bs s) := by
  unfold readBackDone
  split
  · next w b rest _ hq =>
    split
    · split
      · exact succeedAppend_goesOn hq
      · split
        · exact compactOrRefuse_goesOn true hq
        · exact (writeRecord_startKept _ b s).goesOn
    · split
      · exact succeedAppend_goesOn hq
      · exact failAppend_goesOn hq
    all_goals exact .refl s
  · exact .refl s

theorem compactionDone_goesOn (w : Append) (step : AreaStep) (ok : Bool) (hq : s.log.queue = b :: rest) :
    GoesOn s (compactionDone w b step ok s) := by
  unfold compactionDone
  dsimp only
  split
  · split
    · exact (StartKept.of_log (by simp) (by simp)).goesOn
    · exact (StartKept.of_log (by simp) (by simp)).goesOn
    · exact (StartKept.of_log (by simp [writeRecord]) (by simp)).goesOn
  · exact failAppend_goesOn hq

/-! ### INIT and SCAN -/

/-- R118, R119: the hand-over ends SCAN or INIT with no work left. -/
theorem StartWork.idle_of_log (hs : StartWork s) (hp : s.seq.phase = .scan ∨ s.seq.phase = .init) {l : LogUnit}
    (hreplay : l.replay = none) (hinit : l.initStep = none) (hqueue : l.queue = s.log.queue) : StartIdle (s.setLog l) := by
  have hne : s.seq.phase ≠ .flashWait ∧ s.seq.phase ≠ .trialStep ∧ s.seq.phase ≠ .check := by
    rcases hp with h | h <;> simp [h]
  obtain ⟨hf, htrial, hcheck⟩ := hne
  have h0 : (s.setLog l).trialsAsked = s.trialsAsked := State.trialsAsked_congr hqueue
  exact ⟨hs.not_inReset hf, hs.wait_none hf, hreplay, hinit, h0.trans (hs.trials_zero (.inl htrial)),
    hs.reader_false (.inl hcheck), hs.no_rollback (.inr ⟨htrial, hcheck⟩)⟩

theorem StartIdle.logFails (h : StartIdle s) : StartIdle (logFail s) :=
  ⟨by simpa using h.inReset, by simpa using h.wait, by simpa using h.replay, by simpa using h.init,
    (State.trialsAsked_congr (logFail_queue s)).trans h.trials, (State.startReader_congr (by simp)).trans h.reader,
    by simpa using h.rollback⟩

theorem logCorrupt_startKept (s : State) : StartKept s (logCorrupt s) := by
  refine .of_log ⟨by simp, by simp, ?_⟩ (by simp)
  unfold logCorrupt
  split <;> rfl

theorem handOver_startKept (sm : LogSummary) (s : State) : StartKept s (handOver sm s) :=
  ⟨rfl, id, id, Nat.le_refl _, id, fun _ => id⟩

theorem StartIdle.handsOver (h : StartIdle s) (sm : LogSummary) : StartIdle (handOver sm s) :=
  .congr _ h rfl rfl rfl rfl rfl

theorem initDone_goesOn {step : AreaStep} (ok : Bool) (h : s.log.initStep = some step) : GoesOn s (initDone step ok s) :=
    fun hs => by
  have hp : s.seq.phase = .init := hs.init (by simp [h])
  have hnone : s.log.replay = none := hs.replay_none (by simp [hp])
  have hstep (a : Access) (next : AreaStep) : StartKept s (place .log a (s.setLog { s.log with initStep := some next })) :=
    StartKept.trans (t := s.setLog { s.log with initStep := some next })
      ⟨rfl, id, fun _ => by simp [h], Nat.le_refl _, id, fun _ => id⟩ (.of_same (by simp))
  unfold initDone
  split
  · split
    · exact (hstep _ _).goesOn hs
    · exact (hstep _ _).goesOn hs
    · refine ⟨StartIdle.enters ?_ .trialStep, by simp [enterPhase, hp]⟩
      exact hs.idle_of_log (.inr hp) hnone rfl rfl
  · have hidle : StartIdle (s.setLog { s.log with initStep := none }) := hs.idle_of_log (.inr hp) hnone rfl rfl
    exact ⟨(hidle.logFails.handsOver _).enters .trialStep, by simp [enterPhase, hp]⟩

theorem areaStepDone_goesOn (step : AreaStep) (ok : Bool) (s : State) : GoesOn s (areaStepDone step ok s) := by
  unfold areaStepDone
  split
  · next hq =>
    split
    · exact compactionDone_goesOn _ _ _ hq
    · exact .refl s
  · split
    · exact initDone_goesOn ok ‹_›
    · exact .refl s

theorem logProgramDone_goesOn (ok : Bool) (s : State) : GoesOn s (logProgramDone ok s) := by
  unfold logProgramDone
  split
  · exact recordDone_goesOn ok s
  · split
    · exact areaStepDone_goesOn _ ok s
    · split
      · exact areaStepDone_goesOn _ ok s
      · exact .refl s

theorem replayRead_goesOn (addr : Nat) (r : Replay) (h : s.log.replay.isSome = true) : GoesOn s (replayRead addr r s) := by
  have hread : StartKept s (s.setLog { s.log with replay := some r }) := ⟨rfl, fun _ => h, id, Nat.le_refl _, id, fun _ => id⟩
  exact (hread.trans (.of_same (by simp [replayRead]))).goesOn

/-- R94 to R96: SCAN ends with the next phase. -/
theorem endScan_goesOn {ph : StartPhase} (result : ScanResult) (h : s.log.replay.isSome = true) (hph : ph ≠ .serving)
    (hkept : StartKept s t) : GoesOn s (endScan result ph t) := fun hs => by
  have ht := (hkept.goesOn hs).1
  have hp : t.seq.phase = .scan := by rw [hkept.seq, hs.replay h]
  have hidle : StartIdle (t.setLog { t.log with replay := none }) :=
    ht.idle_of_log (.inl hp) rfl (ht.init_none (by simp [hp])) rfl
  have hdone : StartIdle ((t.setLog { t.log with replay := none }).setSeq { t.seq with scanResult := some result }) :=
    .congr _ hidle rfl rfl rfl rfl rfl
  refine ⟨hdone.enters ph, ?_⟩
  simp [endScan, enterPhase, hs.replay h, hph]

theorem chooseArea_goesOn (h0 b0 h1 b1 : List Byte) (h : s.log.replay.isSome = true) :
    GoesOn s (chooseArea h0 b0 h1 b1 s) := by
  have hover := handOver_startKept LogSummary.initial s
  unfold chooseArea
  split
  · exact replayRead_goesOn _ _ h
  · exact replayRead_goesOn _ _ h
  · exact replayRead_goesOn _ _ h
  · split
    · exact endScan_goesOn _ h nofun hover
    · exact endScan_goesOn _ h nofun (hover.trans (logCorrupt_startKept _))

theorem replayTake_goesOn (bs : List Byte) (s : State) : GoesOn s (replayTake bs s) := by
  unfold replayTake
  split
  · exact .refl s
  · next h => exact replayRead_goesOn _ _ (by simp [h])
  · next h => exact replayRead_goesOn _ _ (by simp [h])
  · next h => exact replayRead_goesOn _ _ (by simp [h])
  · next h => exact chooseArea_goesOn _ _ _ _ (by simp [h])
  · next w h =>
    dsimp only
    split
    · exact replayRead_goesOn _ _ (by simp [h])
    · refine endScan_goesOn _ (by simp [h]) nofun (StartKept.trans ?_ (handOver_startKept _ _))
      exact .of_log ⟨rfl, rfl, rfl⟩ ⟨rfl, rfl, rfl⟩

/-! ### The commands of a start-up -/

theorem execPartResetEnd_goesOn {pins : StrapPins} (h : execPartResetEnd pins s = .next t) : GoesOn s t := fun hs => by
  unfold execPartResetEnd at h
  split at h <;> cases h
  · next hr =>
    obtain ⟨hp, -⟩ := hs.reset hr
    exact ⟨⟨nofun, fun _ => hp, hs.replay, hs.init, hs.trials, hs.trial, hs.reader, hs.rollback⟩, .rfl⟩
  · exact ⟨hs, .rfl⟩

/-- R117: while the flash is waited for, the poll and the flash reset follow one another in FLASH_WAIT. -/
theorem StartWork.waits (hs : StartWork s) (h : s.seq.wait ≠ .none) (w : FlashWait) :
    StartWork (s.setSeq { s.seq with wait := w }) := by
  have hreset (hr : s.seq.inReset = true) : s.seq.phase = .flashWait ∧ w = .none := absurd (hs.reset hr).2 h
  exact ⟨hreset, fun _ => hs.wait h, hs.replay, hs.init, hs.trials, hs.trial, hs.reader, hs.rollback⟩

theorem execFlashReady_goesOn (h : execFlashReady s = .next t) : GoesOn s t := fun hs => by
  unfold execFlashReady at h
  (repeat' split at h) <;> cases h
  · next hw _ => exact ⟨hs.waits (by simp [hw]) _, .rfl⟩
  all_goals exact ⟨hs, .rfl⟩

theorem execFlashWaitTimeout_goesOn (h : execFlashWaitTimeout s = .next t) : GoesOn s t := fun hs => by
  unfold execFlashWaitTimeout at h
  (repeat' split at h) <;> cases h
  · next hw _ =>
    have hraise (x : State) : StartKept x (raiseFault .flashTimeout x) := .of_same (by simp)
    exact ⟨((hraise _).goesOn (hs.waits (by simp [hw]) .resetting)).1, .rfl⟩
  all_goals exact ⟨hs, .rfl⟩

theorem execStartUpFlashResetComplete_goesOn {left : Remains} (h : execStartUpFlashResetComplete left s = .next t) :
    GoesOn s t := fun hs => by
  unfold execStartUpFlashResetComplete at h
  split at h <;> cases h
  · next hw =>
    have hp : s.seq.phase = .flashWait := hs.wait (by simp [hw])
    have hreset : s.seq.inReset = false := Bool.eq_false_iff.mpr fun hr => by simp [(hs.reset hr).2] at hw
    have hidle (m : List Host.Cell) : StartIdle ({ s with mem := m, leftover := none }.setSeq { s.seq with wait := .none }) :=
      ⟨hreset, rfl, hs.replay_none (by simp [hp]), hs.init_none (by simp [hp]), hs.trials_zero (.inl (by simp [hp])),
        hs.reader_false (.inl (by simp [hp])), hs.no_rollback (.inr (by simp [hp]))⟩
    exact ⟨(hidle _).enters .scan, by simp [enterPhase, hp]⟩
  all_goals exact ⟨hs, .rfl⟩

theorem atPhase_iff (s : State) (ph : StartPhase) : atPhase s ph = true ↔ s.seq.phase = ph ∧ s.seq.work = .notBegun := by
  simp [atPhase]

/-- The work of a phase begins: nothing is asked for that only a running phase has. -/
theorem StartWork.begins (hs : StartWork s) (h : s.seq.work = .notBegun) : StartWork (phaseRunning s) := by
  have hne : s.seq.work ≠ .running := by simp [h]
  exact ⟨hs.reset, hs.wait, hs.replay, hs.init, hs.trials, fun h1 => absurd (hs.trial h1).2 hne,
    fun hr => absurd (hs.reader hr).2 hne, fun cause hc => absurd hc (hs.no_rollback (.inl hne) cause)⟩

theorem execScan_goesOn (h : execScan s = .next t) : GoesOn s t := fun hs => by
  unfold execScan at h
  split at h <;> cases h
  · next hat =>
    obtain ⟨hp, hw⟩ := (atPhase_iff s .scan).mp hat
    have hb := hs.begins hw
    have hscan : StartWork ((phaseRunning s).setLog { s.log with replay := some (.heads []) }) :=
      ⟨hb.reset, hb.wait, fun _ => hp, hb.init, hb.trials, hb.trial, hb.reader, hb.rollback⟩
    have hplace : StartKept ((phaseRunning s).setLog { s.log with replay := some (.heads []) })
        (replayRead (headAddr 0) (.heads []) (phaseRunning s)) := .of_same (by simp [replayRead])
    exact ⟨(hplace.goesOn hscan).1, by simp⟩
  · exact ⟨hs, .rfl⟩

theorem execInit_goesOn (h : execInit s = .next t) : GoesOn s t := fun hs => by
  unfold execInit at h
  split at h <;> cases h
  · next hat =>
    obtain ⟨hp, hw⟩ := (atPhase_iff s .init).mp hat
    have hb := hs.begins hw
    have hinit : StartWork ((phaseRunning s).setLog { s.log with initStep := some .erase }) :=
      ⟨hb.reset, hb.wait, hb.replay, fun _ => hp, hb.trials, hb.trial, hb.reader, hb.rollback⟩
    have hplace (x : State) (a : Access) : StartKept x (place .log a x) := .of_same (by simp)
    exact ⟨((hplace _ _).goesOn hinit).1, by simp⟩
  · exact ⟨hs, .rfl⟩

/-- R109, R110, R120: the trial step begins its work from an idle start-up, or ends at once. -/
theorem execTrialStep_goesOn (h : execTrialStep s = .next t) : GoesOn s t := fun hs => by
  unfold execTrialStep at h
  split at h <;> cases h
  · next hat =>
    obtain ⟨hp, hw⟩ := (atPhase_iff s .trialStep).mp hat
    have hidle := hs.idle (by simp [hw]) (.inl hp)
    have hrunning : StartIdle (phaseRunning s) := .congr _ hidle rfl rfl rfl rfl rfl
    unfold trialStep
    split
    · exact ⟨hidle.enters .check, by simp [enterPhase, hp]⟩
    · split
      · exact ⟨hrunning.askTrial hp rfl _, .rfl⟩
      · split
        · exact ⟨hrunning.askRollback rfl (.inl ⟨rfl, hp⟩), .rfl⟩
        · exact ⟨(hidle.raises _).enters .check, by simp [enterPhase, hp]⟩
  · exact ⟨hs, .rfl⟩

theorem execCheck_goesOn (h : execCheck s = .next t) : GoesOn s t := fun hs => by
  unfold execCheck at h
  split at h
  · next hat =>
    obtain ⟨hp, hw⟩ := (atPhase_iff s .check).mp hat
    have hidle := hs.idle (by simp [hw]) (.inr hp)
    split at h <;> cases h
    · exact ⟨StartIdle.work (.congr _ hidle rfl rfl rfl rfl rfl), .rfl⟩
    · exact ⟨StartIdle.checkBegins (.congr _ hidle rfl rfl rfl rfl rfl) hp rfl, by simp⟩
  · cases h
    exact ⟨hs, .rfl⟩

end

end Sys2Proof.Machine
end

section
/-!
PROOF of O20 (StartUpStaysSound), third part: every command but PART_RESET and SERVING.
-/

namespace Sys2Proof.Machine

section
variable {s t u : State} {c : Instr}

/-! ### Every command keeps the start-up's work -/

theorem finishReadThen_startKept {nextFirst : Bool} {cl : Client} {a n : Nat} {f : State → State}
    (hf : ∀ x, x.reader = s.reader → StartKept x (f x)) : StartKept s (finishReadThen nextFirst cl a n f s) := by
  unfold finishReadThen
  split
  · have hend : StartKept s (endRead cl a n s) := .of_same (by simp)
    have hlook (x : State) : StartKept x (lookAfterRead x) := .of_same (by simp)
    exact (hend.trans (hf _ (by simp))).trans (hlook _)
  · have hend : StartKept s (finishRead cl a n s) := .of_same (by simp)
    exact hend.trans (hf _ (by simp))

theorem finishProgram_startKept (cl : Client) (a : Nat) (data : List Byte) (left : Remains) (s : State) :
    StartKept s (finishProgram cl a data left s) := .of_same (by simp)

theorem finishErase_startKept (e : FlashErase) (left : Remains) (s : State) : StartKept s (finishErase e left s) :=
  .of_same (by simp)

theorem finishRead_startKept (cl : Client) (a n : Nat) (s : State) : StartKept s (finishRead cl a n s) := .of_same (by simp)

theorem grantNext_startKept (h : grantNext s = .next t) : StartKept s t := by
  unfold grantNext at h
  (repeat' split at h) <;> cases h
  · exact .of_same ⟨rfl, rfl, rfl, rfl⟩
  · exact .refl s

theorem execEraseSuspended_startKept (h : execEraseSuspended s = .next t) : StartKept s t := by
  unfold execEraseSuspended at h
  split at h
  · next e _ =>
    split at h
    · have hsuspend : StartKept s
          (s.setFlash
            { s.flash with erase := some { e with condition := .suspended, suspends := e.suspends + 1 } }.settle) :=
        .of_same ⟨rfl, rfl, rfl, rfl⟩
      exact hsuspend.trans (grantNext_startKept h)
    · cases h
      exact .refl s
  · cases h
    exact .refl s

theorem ownerEraseDone_startKept (p : Port) (e : FlashErase) (ok : Bool) (s : State) :
    StartKept s (ownerEraseDone p e ok s) := .of_same (by simp)

theorem programTimedOut_goesOn (cl : Client) (s : State) : GoesOn s (programTimedOut cl s) := by
  cases cl with
  | hp0 => exact (ownerProgramDone_startKept .hp0 false s).goesOn
  | hp1 => exact (ownerProgramDone_startKept .hp1 false s).goesOn
  | log => exact logProgramDone_goesOn false s
  | work => exact (copyProgramDone_startKept false s).goesOn

theorem eraseTimedOut_goesOn (e : FlashErase) (s : State) : GoesOn s (eraseTimedOut e s) := by
  unfold eraseTimedOut
  split
  · exact (ownerEraseDone_startKept .hp0 e false s).goesOn
  · exact (ownerEraseDone_startKept .hp1 e false s).goesOn
  · exact areaStepDone_goesOn .erase false s
  · exact .refl s

theorem execOperationTimeout_goesOn {left : Remains} (h : execOperationTimeout left s = .next t) : GoesOn s t := by
  have hreset (x : State) : StartKept x (startFlashReset x) := .of_same (by simp)
  unfold execOperationTimeout at h
  (repeat' split at h) <;> cases h
  · exact ((finishProgram_startKept _ _ _ _ s).trans (hreset _)).goesOn.trans (programTimedOut_goesOn _ _)
  · exact .refl s
  · exact .refl s
  · exact .refl s
  · exact .refl s
  · exact ((finishErase_startKept _ _ s).trans (hreset _)).goesOn.trans (eraseTimedOut_goesOn _ _)
  · exact .refl s
  · exact .refl s

theorem execCheckRangeResult_goesOn (h : execCheckRangeResult s = .next t) : GoesOn s t := by
  unfold execCheckRangeResult at h
  (repeat' split at h) <;> cases h
  · next r hr _ =>
    have hidle : StartKept s (s.setCheck CheckUnit.reset s.reader) := .of_same ⟨rfl, rfl, rfl, rfl⟩
    exact hidle.goesOn.trans (rangeResult_goesOn _ hr)
  all_goals exact .refl s

theorem rangeOpen_reader {r : Reader} (h : rangeOpen s = some r) : s.reader = some r := by
  unfold rangeOpen at h
  (repeat' split at h) <;> simp_all

theorem execCheckChunkReadComplete_startKept {nextFirst : Bool} (h : execCheckChunkReadComplete nextFirst s = .next t) :
    StartKept s t := by
  unfold execCheckChunkReadComplete at h
  split at h <;> cases h
  · next hr _ => exact finishReadThen_startKept fun x hx => chunkTaken_startKept _ (hx.trans (rangeOpen_reader hr))
  · exact .refl s

theorem execDescriptorReadComplete_startKept {nextFirst : Bool} (h : execDescriptorReadComplete nextFirst s = .next t) :
    StartKept s t := by
  unfold execDescriptorReadComplete at h
  (repeat' split at h) <;> cases h
  · next hr _ _ _ _ => exact finishReadThen_startKept fun x hx => startSegmentRange_startKept _ _ _ (hx.trans hr)
  all_goals exact .refl s

theorem execSwitchTakesEffect_goesOn (h : execSwitchTakesEffect s = .next t) : GoesOn s t := by
  unfold execSwitchTakesEffect at h
  split at h <;> cases h
  · exact switchEffect_goesOn s
  · exact .refl s

theorem execReplayReadComplete_goesOn (h : execReplayReadComplete s = .next t) : GoesOn s t := by
  unfold execReplayReadComplete at h
  split at h <;> cases h
  · exact (finishRead_startKept _ _ _ s).goesOn.trans (replayTake_goesOn _ _)
  · exact .refl s

theorem execNextChunk_goesOn {p : Port} {clocks : Clocking} (h : execNextChunk p clocks s = .next t) : GoesOn s t := by
  have hclock : StartKept s (clockBytes p clocks s) := .of_same (by simp)
  have hform (x : State) : StartKept x (formChunk p x) := .of_same (by simp)
  unfold execNextChunk at h
  dsimp only at h
  split at h <;> cases h
  · exact (hclock.trans (hform _)).goesOn
  · exact hclock.goesOn

theorem execIdleTimerExpiry_goesOn (h : execIdleTimerExpiry s = .next t) : GoesOn s t := by
  have habandon : StartKept s (abandonSession .idle s) := .of_same (by simp)
  unfold execIdleTimerExpiry at h
  split at h <;> cases h
  · exact habandon.goesOn
  · exact .refl s

theorem execHostChunkReadComplete_goesOn {p : Port} {chunkEnd : ChunkEnd}
    (h : execHostChunkReadComplete p chunkEnd s = .next t) : GoesOn s t := by
  unfold execHostChunkReadComplete at h
  split at h <;> cases h
  · exact (finishReadThen_startKept fun x _ => hostChunkThen_startKept _ _ _ x).goesOn
  · exact .refl s

theorem execOpeningEraseComplete_goesOn {r : FlashReport} (h : execOpeningEraseComplete r s = .next t) :
    GoesOn s t := by
  have hdone (p : Port) (seg : Nat) (x : State) : StartKept x (openingDone p seg (reportOk r) x) := .of_same (by simp)
  unfold execOpeningEraseComplete at h
  (repeat' split at h) <;> cases h
  · exact ((finishErase_startKept _ _ s).trans (hdone _ _ _)).goesOn
  all_goals exact .refl s

theorem execShadowSectorEraseComplete_goesOn {r : FlashReport} (h : execShadowSectorEraseComplete r s = .next t) :
    GoesOn s t := by
  have hdone (p : Port) (seg : Nat) (x : State) : StartKept x (sectorEraseDone p seg (reportOk r) x) := .of_same (by simp)
  unfold execShadowSectorEraseComplete at h
  (repeat' split at h) <;> cases h
  · exact ((finishErase_startKept _ _ s).trans (hdone _ _ _)).goesOn
  all_goals exact .refl s

theorem execShadowBlockEraseComplete_goesOn {r : FlashReport} (h : execShadowBlockEraseComplete r s = .next t) :
    GoesOn s t := by
  have hdone (p : Port) (seg : Nat) (x : State) : StartKept x (blockEraseDone p seg (reportOk r) x) := .of_same (by simp)
  unfold execShadowBlockEraseComplete at h
  (repeat' split at h) <;> cases h
  · exact ((finishErase_startKept _ _ s).trans (hdone _ _ _)).goesOn
  all_goals exact .refl s

theorem execOwnerProgramComplete_goesOn {r : FlashReport} (h : execOwnerProgramComplete r s = .next t) :
    GoesOn s t := by
  unfold execOwnerProgramComplete at h
  (repeat' split at h) <;> cases h
  · exact ((finishProgram_startKept _ _ _ _ s).trans (ownerProgramDone_startKept _ _ _)).goesOn
  all_goals exact .refl s

theorem execCopyReadComplete_goesOn (h : execCopyReadComplete s = .next t) : GoesOn s t := by
  have hdone (cur : Cursor) (bytes : List Byte) (x : State) : StartKept x (copyReadDone cur bytes x) := .of_same (by simp)
  unfold execCopyReadComplete at h
  (repeat' split at h) <;> cases h
  · exact ((finishRead_startKept _ _ _ s).trans (hdone _ _ _)).goesOn
  all_goals exact .refl s

theorem execCopyProgramComplete_goesOn {r : FlashReport} (h : execCopyProgramComplete r s = .next t) : GoesOn s t := by
  unfold execCopyProgramComplete at h
  (repeat' split at h) <;> cases h
  · exact ((finishProgram_startKept _ _ _ _ s).trans (copyProgramDone_startKept _ _)).goesOn
  all_goals exact .refl s

theorem execAppendWrite_goesOn (h : execAppendWrite s = .next t) : GoesOn s t := by
  unfold execAppendWrite at h
  (repeat' split at h) <;> cases h
  · next hq _ => exact startAppend_goesOn hq
  all_goals exact .refl s

theorem execRecordProgramComplete_goesOn {r : FlashReport} (h : execRecordProgramComplete r s = .next t) :
    GoesOn s t := by
  unfold execRecordProgramComplete at h
  (repeat' split at h) <;> cases h
  · exact (finishProgram_startKept _ _ _ _ s).goesOn.trans (recordDone_goesOn _ _)
  all_goals exact .refl s

theorem execReadBackComplete_goesOn (h : execReadBackComplete s = .next t) : GoesOn s t := by
  unfold execReadBackComplete at h
  (repeat' split at h) <;> cases h
  · exact (finishRead_startKept _ _ _ s).goesOn.trans (readBackDone_goesOn _ _)
  all_goals exact .refl s

theorem execMapAreaEraseComplete_goesOn {r : FlashReport} (h : execMapAreaEraseComplete r s = .next t) :
    GoesOn s t := by
  unfold execMapAreaEraseComplete at h
  (repeat' split at h) <;> cases h
  · exact (finishErase_startKept _ _ s).goesOn.trans (areaStepDone_goesOn _ _ _)
  all_goals exact .refl s

theorem execAreaHeaderProgramComplete_goesOn {r : FlashReport} (h : execAreaHeaderProgramComplete r s = .next t) :
    GoesOn s t := by
  unfold execAreaHeaderProgramComplete at h
  (repeat' split at h) <;> cases h
  · exact (finishProgram_startKept _ _ _ _ s).goesOn.trans (areaStepDone_goesOn _ _ _)
  all_goals exact .refl s

theorem execBaseProgramComplete_goesOn {r : FlashReport} (h : execBaseProgramComplete r s = .next t) : GoesOn s t := by
  unfold execBaseProgramComplete at h
  (repeat' split at h) <;> cases h
  · exact (finishProgram_startKept _ _ _ _ s).goesOn.trans (areaStepDone_goesOn _ _ _)
  all_goals exact .refl s

/-- Every command but PART_RESET and SERVING. -/
theorem exec_goesOn (hc : c ≠ .partReset) (hserving : ∀ release, c ≠ .serving release) (h : exec c s = .next t) :
    GoesOn s t := by
  have harrive (p : Port) (r : HostRequest) (heq : Host.Outcome.next (arrive p r s) = exec c s) : GoesOn s t := by
    rw [h] at heq
    cases heq
    exact (arrive_startKept p r s).goesOn
  cases c with
  | partReset => exact absurd rfl hc
  | serving release => exact absurd rfl (hserving release)
  | partResetEnd pins => exact execPartResetEnd_goesOn h
  | flashReady => exact execFlashReady_goesOn h
  | flashWaitTimeout => exact execFlashWaitTimeout_goesOn h
  | startUpFlashResetComplete left => exact execStartUpFlashResetComplete_goesOn h
  | scan => exact execScan_goesOn h
  | replayReadComplete => exact execReplayReadComplete_goesOn h
  | init => exact execInit_goesOn h
  | trialStep => exact execTrialStep_goesOn h
  | check => exact execCheck_goesOn h
  | arrayRead p addr clocks => exact harrive p (.arrayRead addr clocks) rfl
  | nextChunk p clocks => exact execNextChunk_goesOn h
  | transferEnd p clocks =>
    cases h
    have hclock : StartKept s (clockBytes p clocks s) := .of_same (by simp)
    have hend (x : State) : StartKept x (endTransfer p x) := .of_same (by simp)
    exact (hclock.trans (hend _)).goesOn
  | pageProgram p addr data => exact harrive p (.pageProgram addr data) rfl
  | sectorErase p addr => exact harrive p (.sectorErase addr) rfl
  | segmentErase p addr => exact harrive p (.segmentErase addr) rfl
  | startCommit p => exact harrive p (controlProgram .startCommit) rfl
  | abandon p => exact harrive p (controlProgram .abandon) rfl
  | accept p => exact harrive p (controlProgram .accept) rfl
  | revert p => exact harrive p (controlProgram .revert) rfl
  | writeEnable p => exact harrive p .writeEnable rfl
  | writeDisable p => exact harrive p .writeDisable rfl
  | statusRead p clocks => exact harrive p (.statusRead clocks) rfl
  | extendedStatusRead p clocks => exact harrive p (.extendedStatusRead clocks) rfl
  | identRead p clocks => exact harrive p (.identRead clocks) rfl
  | softReset p => exact harrive p .softReset rfl
  | unknownCode p code clocks => exact harrive p (.unknownCode code clocks) rfl
  | incompleteRequest p sent =>
    cases h
    exact .refl s
  | heldRequestForgotten p =>
    cases h
    have hforget : StartKept s (forgetHeld p s) := .of_same (by simp)
    exact hforget.goesOn
  | idleTimerExpiry => exact execIdleTimerExpiry_goesOn h
  | accessGrant => exact (grantNext_startKept h).goesOn
  | eraseSuspended => exact (execEraseSuspended_startKept h).goesOn
  | operationTimeout left => exact execOperationTimeout_goesOn h
  | flashResetComplete =>
    cases h
    exact (StartKept.of_same (s := s) (t := s.setFlash { s.flash with resetting := false }) (by simp)).goesOn
  | hostChunkReadComplete p chunkEnd => exact execHostChunkReadComplete_goesOn h
  | openingEraseComplete r => exact execOpeningEraseComplete_goesOn h
  | shadowSectorEraseComplete r => exact execShadowSectorEraseComplete_goesOn h
  | shadowBlockEraseComplete r => exact execShadowBlockEraseComplete_goesOn h
  | ownerProgramComplete r => exact execOwnerProgramComplete_goesOn h
  | checkChunkReadComplete nextFirst => exact (execCheckChunkReadComplete_startKept h).goesOn
  | checkRangeResult => exact execCheckRangeResult_goesOn h
  | descriptorReadComplete nextFirst => exact (execDescriptorReadComplete_startKept h).goesOn
  | copyReadComplete => exact execCopyReadComplete_goesOn h
  | copyProgramComplete r => exact execCopyProgramComplete_goesOn h
  | appendWrite => exact execAppendWrite_goesOn h
  | recordProgramComplete r => exact execRecordProgramComplete_goesOn h
  | readBackComplete => exact execReadBackComplete_goesOn h
  | mapAreaEraseComplete r => exact execMapAreaEraseComplete_goesOn h
  | areaHeaderProgramComplete r => exact execAreaHeaderProgramComplete_goesOn h
  | baseProgramComplete r => exact execBaseProgramComplete_goesOn h
  | switchTakesEffect => exact execSwitchTakesEffect_goesOn h

end

end Sys2Proof.Machine
end

section
/-!
PROOF of O20 (StartUpStaysSound), fourth part: the ports until SERVING; and of O25 (WhatLastsUntilPartReset).
-/

namespace Sys2Proof.Machine

/-! ### The ports until SERVING -/

/-- R124: both ports are HELD, with no transfer and nothing pinned. -/
def PortsHeld (s : State) : Prop := s.map.pinned = 0 ∧ ∀ p, (s.port p).state = .held ∧ (s.port p).transfer = none

/-- R125: no port is HELD. -/
def PortsReleased (s : State) : Prop := ∀ p, (s.port p).state ≠ .held

theorem holdSound_iff (s : State) :
    s.holdSound ↔ (s.seq.phase ≠ .serving → PortsHeld s) ∧ (s.seq.phase = .serving → PortsReleased s) := by
  constructor
  · rintro ⟨hpin, hp⟩
    exact ⟨fun h => ⟨hpin h, fun p => (hp p).1 h⟩, fun h p => (hp p).2 h⟩
  · rintro ⟨hheld, hreleased⟩
    exact ⟨fun h => (hheld h).1, fun p => ⟨fun h => (hheld h).2 p, fun h => hreleased h p⟩⟩

section
variable {short : Prop} {s t : State} {c : Instr}

/-- An update of a port with a transfer leaves its state or makes it READY; one without is a kept port. -/
theorem Change.port_cases (h : Change short s t) (p : Port) :
    PortKept (s.port p) (t.port p) ∨
      (s.port p).transfer ≠ none ∧ ((t.port p).state = (s.port p).state ∨ (t.port p).state = .ready) := by
  have hsame (heq : t.port p = s.port p) : PortKept (s.port p) (t.port p) := heq ▸ .of_same rfl rfl rfl rfl
  cases h with
  | port r q hk =>
    by_cases hr : p = r
    · subst hr
      rw [port_setPort]
      exact .inl hk
    · exact .inl (hsame (port_setPort_of_ne hr _ _))
  | pin r x hx he hend =>
    by_cases hr : p = r
    · subst hr
      refine .inr ⟨by simp [hx], .inl ?_⟩
      cases p <;> rfl
    · refine .inl (hsame ?_)
      cases r <;> cases p <;> first | exact absurd rfl hr | rfl
  | unpin r x q hx hend hq =>
    by_cases hr : p = r
    · subst hr
      refine .inr ⟨by simp [hx], ?_⟩
      rw [port_setPort]
      rcases hq with rfl | rfl
      · exact .inl rfl
      · exact .inr rfl
    · exact .inl (hsame (by rw [port_setPort_of_ne hr, unpin_port]))
  | mem m o _ => exact .inl (hsame (by cases p <;> rfl))
  | switchAsked sw => exact .inl (hsame (by cases p <;> rfl))
  | logFail =>
    refine .inl (hsame ?_)
    unfold Machine.logFail
    split <;> cases p <;> rfl
  | logCorrupt =>
    refine .inl (hsame ?_)
    unfold Machine.logCorrupt
    split <;> cases p <;> rfl
  | _ => exact .inl (hsame (by simp))

theorem Change.pinned_cases (h : Change short s t) :
    t.map.pinned = s.map.pinned ∨ ∃ p, (s.port p).transfer ≠ none := by
  cases h with
  | pin p x hx _ _ => exact .inr ⟨p, by simp [hx]⟩
  | unpin p x q hx _ _ => exact .inr ⟨p, by simp [hx]⟩
  | _ => exact .inl (by simp)

theorem Change.portsHeld (h : Change short s t) (hs : PortsHeld s) : PortsHeld t := by
  obtain ⟨hpin, hports⟩ := hs
  refine ⟨h.pinned_cases.elim (fun g => g.trans hpin) fun ⟨p, hp⟩ => absurd (hports p).2 hp, fun p => ?_⟩
  obtain ⟨hheld, hnone⟩ := hports p
  exact (h.port_cases p).elim (fun g => g.held hheld hnone) fun g => absurd hnone g.1

theorem Change.portsReleased (h : Change short s t) (hs : PortsReleased s) : PortsReleased t := fun p => by
  rcases h.port_cases p with hk | ⟨-, hst | hst⟩
  · exact hk.released (hs p)
  · rw [hst]
    exact hs p
  · simp [hst]

theorem portsHeld_congr (hp : ∀ p, t.port p = s.port p) (hm : t.map.pinned = s.map.pinned) (hs : PortsHeld s) :
    PortsHeld t := ⟨hm.trans hs.1, fun p => hp p ▸ hs.2 p⟩

theorem portsReleased_congr (hp : ∀ p, t.port p = s.port p) (hs : PortsReleased s) : PortsReleased t :=
  fun p => hp p ▸ hs p

theorem First.ports_eq (h : First c s t) (hserving : ∀ release, c ≠ .serving release) :
    (∀ p, t.port p = s.port p) ∧ t.map.pinned = s.map.pinned := by
  cases h with
  | serving release => exact absurd rfl (hserving release)
  | _ => exact ⟨fun p => by simp, rfl⟩

/-- Every command but PART_RESET and SERVING leaves held ports held and released ports released. -/
theorem exec_ports (hc : c ≠ .partReset) (hserving : ∀ release, c ≠ .serving release) (h : exec c s = .next t) :
    (PortsHeld s → PortsHeld t) ∧ (PortsReleased s → PortsReleased t) := by
  rcases exec_does hc h with hm | ⟨a, hf, hq⟩
  · exact ⟨hm.keeps Change.portsHeld fun hj => portsHeld_congr hj.ports_eq.1 hj.ports_eq.2,
      hm.keeps Change.portsReleased fun hj => portsReleased_congr hj.ports_eq.1⟩
  · obtain ⟨hp, hpin⟩ := hf.ports_eq hserving
    exact ⟨fun hs => hq.keeps Change.portsHeld (portsHeld_congr hp hpin hs),
      fun hs => hq.keeps Change.portsReleased (portsReleased_congr hp hs)⟩

/-! ### SERVING -/

theorem served_released (s : State) : PortsReleased (served s) := fun p => by
  rw [served_port]
  by_cases h : (s.port p).state = .held <;> simp [h]

theorem startUpSound_iff (s : State) : s.startUpSound ↔ StartWork s ∧ s.holdSound := by
  rw [← startWork_iff]
  exact and_assoc.symm

/-- R125: SERVING is entered from a check that has ended, with both ports released. -/
theorem execServing_startUpSound {release : Release} (hs : s.startUpSound) (h : execServing release s = .next t) :
    t.startUpSound ∧ (s.seq.phase = .serving → t.seq.phase = .serving) := by
  have hquiet (x : State) (p : Port) : Quiet True x (takeHeld p (releaseClocks release p) x) := takeHeld_quiet _ _ x
  unfold execServing at h
  split at h <;> cases h
  · next hat =>
    obtain ⟨hp, hw⟩ := hat
    have hidle := ((startUpSound_iff s).mp hs).1.idle (by simp [hw]) (.inr hp)
    have hserved : StartWork (served s) := (StartIdle.congr (served s) hidle rfl rfl rfl rfl rfl).work
    have htaken := (takeHeld_startKept release.first (releaseClocks release release.first) (served s)).trans
      (takeHeld_startKept (otherPort release.first) (releaseClocks release (otherPort release.first)) _)
    have hports := (hquiet _ (otherPort release.first)).keeps Change.portsReleased
      ((hquiet (served s) release.first).keeps Change.portsReleased (served_released s))
    refine ⟨(startUpSound_iff _).mpr ⟨(htaken.goesOn hserved).1, (holdSound_iff _).mpr ⟨fun hne => ?_, fun _ => hports⟩⟩,
      fun hserving => by simp [hp] at hserving⟩
    exact absurd (congrArg Sequencer.phase htaken.seq) hne
  · exact ⟨hs, id⟩

theorem exec_startUpSound (hc : c ≠ .partReset) (hs : s.startUpSound) (h : exec c s = .next t) :
    t.startUpSound ∧ (s.seq.phase = .serving → t.seq.phase = .serving) := by
  by_cases hserving : ∃ release, c = .serving release
  · obtain ⟨release, rfl⟩ := hserving
    exact execServing_startUpSound hs h
  · have hne (release : Release) : c ≠ .serving release := fun heq => hserving ⟨release, heq⟩
    obtain ⟨hwork, hhold⟩ := (startUpSound_iff s).mp hs
    obtain ⟨hheld, hreleased⟩ := (holdSound_iff s).mp hhold
    obtain ⟨hwork', hphase⟩ := exec_goesOn hc hne h hwork
    obtain ⟨hkeepheld, hkeepreleased⟩ := exec_ports hc hne h
    refine ⟨(startUpSound_iff t).mpr ⟨hwork', (holdSound_iff t).mpr ⟨fun hp => ?_, fun hp => ?_⟩⟩, hphase.mpr⟩
    · exact hkeepheld (hheld fun g => hp (hphase.mpr g))
    · exact hkeepreleased (hreleased (hphase.mp hp))

theorem passTime_startUpSound (hs : s.startUpSound) : (passTime s).startUpSound := by
  obtain ⟨⟨hreset, hwait⟩, hwork, hhold⟩ := hs
  have htick : s.seq.wait.tick = .none ↔ s.seq.wait = .none := by cases s.seq.wait <;> simp [FlashWait.tick]
  refine ⟨⟨fun hr => ?_, fun hw => hwait fun hn => hw (htick.mpr hn)⟩, hwork, hhold⟩
  obtain ⟨hp, hn⟩ := hreset hr
  exact ⟨hp, htick.mpr hn⟩

/-- Settles O20: a step goes on with the start-up's work and leaves the ports held until SERVING releases them. -/
theorem startUpStaysSound : Obligations.StartUpStaysSound := by
  unfold Obligations.StartUpStaysSound
  intro s t hs h
  unfold step at h
  split at h
  · cases h
    exact passTime_startUpSound hs
  · next c rest _ =>
    by_cases hc : c = .partReset
    · subst hc
      rw [exec_partReset] at h
      cases h
      exact resetStateIsSound.2.2.2.2.1
    · exact (exec_startUpSound hc (s := s.withPending rest) hs h).1

/-! ### What lasts until a part reset (O25) -/

/-- R160: no member leaves the fault set. -/
structure FaultsKept (f g : FaultSet) : Prop where
  flashTimeout : f.flashTimeout = true → g.flashTimeout = true
  logFault : f.logFault = true → g.logFault = true
  logCorrupt : f.logCorrupt = true → g.logCorrupt = true
  noValidImage : f.noValidImage = true → g.noValidImage = true
  trialExpired : f.trialExpired = true → g.trialExpired = true

theorem FaultsKept.refl (f : FaultSet) : FaultsKept f f := ⟨id, id, id, id, id⟩

theorem FaultsKept.trans {f g k : FaultSet} (h : FaultsKept f g) (h' : FaultsKept g k) : FaultsKept f k :=
  ⟨h'.flashTimeout ∘ h.flashTimeout, h'.logFault ∘ h.logFault, h'.logCorrupt ∘ h.logCorrupt,
    h'.noValidImage ∘ h.noValidImage, h'.trialExpired ∘ h.trialExpired⟩

theorem FaultsKept.add (f : FaultSet) (m : FaultMember) : FaultsKept f (f.add m) := by
  cases m <;> exact ⟨by simp [FaultSet.add], by simp [FaultSet.add], by simp [FaultSet.add], by simp [FaultSet.add],
    by simp [FaultSet.add]⟩

/-- R97, R160: what no command but PART_RESET takes back. -/
structure LastsUntilReset (s t : State) : Prop where
  lock : s.log.lock ≠ .ok → t.log.lock = s.log.lock
  flashTimeout : s.faults.flashTimeout = true → t.faults.flashTimeout = true
  logFault : s.faults.logFault = true → t.faults.logFault = true
  logCorrupt : s.faults.logCorrupt = true → t.faults.logCorrupt = true

theorem LastsUntilReset.trans {u : State} (h : LastsUntilReset s t) (g : LastsUntilReset t u) : LastsUntilReset s u :=
  ⟨fun hs => (g.lock (by rw [h.lock hs]; exact hs)).trans (h.lock hs), g.flashTimeout ∘ h.flashTimeout,
    g.logFault ∘ h.logFault, g.logCorrupt ∘ h.logCorrupt⟩

theorem Change.faultsKept (h : Change short s t) : FaultsKept s.faults t.faults := by
  cases h with
  | fault m => exact .add _ m
  | logFail =>
    unfold Machine.logFail
    split
    · exact .add _ .logFault
    · exact .refl _
  | logCorrupt =>
    unfold Machine.logCorrupt
    split
    · exact .add _ .logCorrupt
    · exact .refl _
  | programTimeout => exact .add _ .flashTimeout
  | eraseTimeout => exact .add _ .flashTimeout
  | _ => simpa using .refl _

theorem Quiet.faultsKept (h : Quiet short s t) : FaultsKept s.faults t.faults := by
  induction h with
  | refl => exact .refl _
  | tail _ hc ih => exact ih.trans hc.faultsKept

theorem Change.lastsUntilReset (h : Change short s t) : LastsUntilReset s t := by
  have hf := h.faultsKept
  refine ⟨fun hlock => ?_, hf.flashTimeout, hf.logFault, hf.logCorrupt⟩
  cases h with
  | log l hl => exact hl.lock
  | logFail => rw [logFail_of_ne hlock]
  | logCorrupt => rw [logCorrupt_of_ne hlock]
  | _ => simp

theorem Jump.lastsUntilReset (h : Jump s t) : LastsUntilReset s t := by
  cases h <;> exact ⟨fun _ => rfl, id, id, id⟩

theorem First.lastsUntilReset (h : First c s t) : LastsUntilReset s t := by
  cases h <;> exact ⟨fun _ => rfl, id, id, id⟩

/-- R97, R160: the lock state and the faults of the flash and of the log. -/
theorem exec_lastsUntilReset (hc : c ≠ .partReset) (h : exec c s = .next t) : LastsUntilReset s t := by
  have hrefl : LastsUntilReset s s := ⟨fun _ => rfl, id, id, id⟩
  rcases exec_does hc h with hm | ⟨a, hf, hq⟩
  · exact hm.keeps (fun hx hs => hs.trans hx.lastsUntilReset) (fun hx hs => hs.trans hx.lastsUntilReset) hrefl
  · exact hq.keeps (fun hx hs => hs.trans hx.lastsUntilReset) hf.lastsUntilReset

theorem Change.straps_eq (h : Change short s t) : t.seq.straps = s.seq.straps := by
  cases h with
  | seq q hq => exact hq
  | _ => simp

/-- R115: the straps are latched at the end of a part reset only. -/
theorem exec_straps (hc : c ≠ .partReset) (hend : ∀ pins, c ≠ .partResetEnd pins) (h : exec c s = .next t) :
    t.seq.straps = s.seq.straps := by
  rcases exec_does hc h with hm | ⟨a, hf, hq⟩
  · exact hm.keeps (fun hx hs => hx.straps_eq.trans hs) (fun hj hs => by cases hj <;> exact hs) rfl
  · refine hq.keeps (fun hx hs => hx.straps_eq.trans hs) ?_
    cases hf with
    | straps pins => exact absurd rfl (hend pins)
    | _ => rfl

/-- R161: no member leaves the fault set but at a switch. -/
theorem exec_faultsKept (hc : c ≠ .partReset) (h : exec c s = .next t) (hepoch : t.map.epoch = s.map.epoch) :
    FaultsKept s.faults t.faults := by
  rcases exec_does hc h with hm | ⟨a, hf, hq⟩
  · cases hm with
    | quiet q => exact q.faultsKept
    | jump a b hcalm hj hq =>
      cases hj with
      | switch sw i _ =>
        have hraised : t.map.epoch = s.map.epoch + 1 :=
          hq.imageKept.epoch.trans (congrArg (· + 1) hcalm.quiet.imageKept.epoch)
        exact absurd (hraised.symm.trans hepoch) (add_one_ne_self _)
      | handOver sm _ => exact hcalm.quiet.faultsKept.trans hq.faultsKept
  · have hfirst : a.faults = s.faults := by cases hf <;> rfl
    exact hfirst ▸ hq.faultsKept

/-- Settles O25: no update but PART_RESET takes back the lock state, the straps or a fault, and only a switch the two faults of
the image. -/
theorem whatLastsUntilPartReset : Obligations.WhatLastsUntilPartReset := by
  unfold Obligations.WhatLastsUntilPartReset
  intro c s t hc h
  have hlasts := exec_lastsUntilReset hc h
  exact ⟨fun hs => (exec_startUpSound hc hs h).2, hlasts.lock, fun hend => exec_straps hc hend h, hlasts.flashTimeout,
    hlasts.logFault, hlasts.logCorrupt, fun he => (exec_faultsKept hc h he).noValidImage,
    fun he => (exec_faultsKept hc h he).trialExpired⟩

end

end Sys2Proof.Machine
end
